-- ==== Sys2Proof/Word.lean ====
section
/-!
DEFINITION. The widths of the block's values, and the command word with its operand as the port carries them
(spec 00_scope.md R8, 30_encoding.md R47, R49).
-/

namespace Sys2Proof

/-- One byte of a frame or of a byte stream (00_scope.md R9). -/
abbrev Byte := BitVec 8

/-- A CRC register: `CRC_WIDTH` = 24 (00_scope.md R5). -/
abbrev Crc := BitVec 24

/-- The 64-bit operand `data` and the 64-bit response `value`: `XLEN` = 64 (00_scope.md R5). -/
abbrev Word := BitVec 64

/-- The 16-bit command word `cmd`: `CMD_BITS` = 16 (00_scope.md R5). -/
abbrev CmdWord := BitVec 16

/-- What the host presents on the command port: `cmd` and `data`, both together (30_encoding.md R47). -/
structure Command where
  cmd : CmdWord
  data : Word
  deriving DecidableEq, Repr

end Sys2Proof
end

