-- ==== Sys2Proof/Config.lean ====
section
/-!
DEFINITION. The parameters of the hardware (spec 00_scope.md R5). Every one has a value there, so there is no free
value and no opaque constant. The parameters that are choices of form and not numbers stand in the definitions they shape:
`CRC_XOROUT` (none), `CRC_REFIN` and `CRC_REFOUT` (false) in Machine/Crc.lean, `OVF_POLICY` (wrap) and `SM_SIGN_POS` (the
field's most significant bit) in Machine/Formats.lean, `CRC_WIDTH`, `XLEN` and `CMD_BITS` in Word.lean.
-/

namespace Sys2Proof.Config

/-- `CRC_POLY`: the 24 feedback taps, `CRC_POLY25` = 0x1864CFB without its x^24 term. -/
abbrev crcPoly : Crc := 0x864CFB#24

/-- `CRC_POLY25`: the generator polynomial with its x^24 term. -/
abbrev crcPoly25 : BitVec 25 := 0x1864CFB#25

/-- `CRC_INIT`: the CRC before the first byte. -/
abbrev crcInit : Crc := 0x000000#24

/-- `PREAMBLE`: the first byte of every frame. -/
abbrev preamble : Byte := 0xD3#8

/-- `RESERVED_BITS`: how many zero bits follow the preamble. -/
abbrev reservedBits : Nat := 6

/-- `LEN_BITS`: the width of the length field. -/
abbrev lenBits : Nat := 10

/-- `MAX_PAYLOAD_BYTES`. -/
abbrev maxPayloadBytes : Nat := 1023

/-- `PBUF_BITS`: the capacity of the payload buffer in bits. -/
abbrev pbufBits : Nat := 8184

/-- `WMIN`, the smallest field width. -/
abbrev wMin : Nat := 1

/-- `WMAX`, the largest field width. -/
abbrev wMax : Nat := 64

end Sys2Proof.Config
end

