-- ==== Sys2Proof/Syntax.lean ====
section
/-!
DEFINITION. The eighteen commands (spec 30_encoding.md R53), one constructor for each row of opcode_table.json. A command
carries its width `W` as the integer 1..64 of R51, its no-append flag `na`, and the whole 64-bit operand `data`; the
operand forms of R52 pick the bits a command reads. Class Z ignores `data` (R48), so its commands carry none.
-/

namespace Sys2Proof

/-- The commands, in the table's order. -/
inductive Instr where
  /-- `NOP`, class Z (R111). -/
  | nop
  /-- `RD_STATUS`, class Z (R112). -/
  | rdStatus
  /-- `CLR_FLAGS data`, class D (R113). -/
  | clrFlags (data : Word)
  /-- `RD_PLEN`, class Z (R114). -/
  | rdPlen
  /-- `ENC_U W, data`, or with `na` set `ENC_U.N W, data`, class WE (R68). -/
  | encU (na : Bool) (width : Nat) (data : Word)
  /-- `ENC_S W, data`, or with `na` set `ENC_S.N W, data`, class WE (R69). -/
  | encS (na : Bool) (width : Nat) (data : Word)
  /-- `ENC_SM W, data`, or with `na` set `ENC_SM.N W, data`, class WE (R70). -/
  | encSM (na : Bool) (width : Nat) (data : Word)
  /-- `DEC_U W, data`, class WD (R71). -/
  | decU (width : Nat) (data : Word)
  /-- `DEC_S W, data`, class WD (R72). -/
  | decS (width : Nat) (data : Word)
  /-- `DEC_SM W, data`, class WD (R73). -/
  | decSM (width : Nat) (data : Word)
  /-- `CRC_INIT`, class Z (R87). -/
  | crcInit
  /-- `CRC_BYTE data`, class D (R88). -/
  | crcByte (data : Word)
  /-- `CRC_RD`, class Z (R89). -/
  | crcRd
  /-- `PAY_CLR`, class Z (R98). -/
  | payClr
  /-- `BUILD_FRAME`, class Z (R99). -/
  | buildFrame
  /-- `CHK_START`, class Z (R100). -/
  | chkStart
  /-- `CHK_BYTE data`, class D (R101). -/
  | chkByte (data : Word)
  /-- `CHK_RESULT`, class Z (R102). -/
  | chkResult
  deriving DecidableEq, Repr

end Sys2Proof
end

