-- ==== Sys2Proof/WellFormed.lean ====
section
/-!
DEFINITION. The commands that have an encoding: a field width is an integer 1..64 (spec 30_encoding.md R51; `WMIN` and
`WMAX` of 00_scope.md R5). Nothing else restricts a command: every flag `na` and every operand `data` is legal (R50, R52).
-/

namespace Sys2Proof

/-- The widths a command word can express (R51). -/
abbrev WidthOk (width : Nat) : Prop := Config.wMin ≤ width ∧ width ≤ Config.wMax

/-- A command is well formed when its width, if it has one, can be expressed. -/
def wellFormed (i : Instr) : Bool :=
  match i with
  | .encU _ w _ => decide (WidthOk w)
  | .encS _ w _ => decide (WidthOk w)
  | .encSM _ w _ => decide (WidthOk w)
  | .decU w _ => decide (WidthOk w)
  | .decS w _ => decide (WidthOk w)
  | .decSM w _ => decide (WidthOk w)
  | .nop => true
  | .rdStatus => true
  | .clrFlags _ => true
  | .rdPlen => true
  | .crcInit => true
  | .crcByte _ => true
  | .crcRd => true
  | .payClr => true
  | .buildFrame => true
  | .chkStart => true
  | .chkByte _ => true
  | .chkResult => true

end Sys2Proof
end

