-- ==== Sys2Proof/Decode.lean ====
section
/-!
DEFINITION. From a command word and its operand to a command, and back (spec 30_encoding.md R47 to R60). `decode` is total
on all 2^16 words and every operand, and says by name why a word is illegal (R50, R54). `encode` is the assembler's half,
from the same tables. `opcodeRows` is the match and mask table of R53. The pseudo-commands of R57 to R59 stand at the end.
-/

namespace Sys2Proof

/-- The eighteen mnemonics of R53, without operands. -/
inductive Op where
  | nop | rdStatus | clrFlags | rdPlen
  | encU | encS | encSM
  | decU | decS | decSM
  | crcInit | crcByte | crcRd
  | payClr | buildFrame | chkStart | chkByte | chkResult
  deriving DecidableEq, Repr

/-- The four format classes of R48. -/
inductive FormatClass where
  /-- No operand. -/
  | z
  /-- Data operand. -/
  | d
  /-- Width, encode: uses `wm1` and `na`. -/
  | we
  /-- Width, decode: uses `wm1`. -/
  | wd
  deriving DecidableEq, Repr

/-- Why a command word is illegal (R54). All four lead to the same event, IllegalCommand. -/
inductive DecodeError where
  /-- `op` is none of the eighteen. -/
  | unassignedOpcode
  /-- Bit 6 is 1. -/
  | reservedBitSet
  /-- `na` is 1 outside `ENC_*`. -/
  | naNotZero
  /-- `wm1` is not 0 outside `ENC_*` and `DEC_*`. -/
  | widthNotZero
  deriving DecidableEq, Repr

/-- The fields of the one layout of R47: bits 15:8. -/
def opField (w : CmdWord) : BitVec 8 := w.extractLsb' 8 8

/-- R47, bit 7. -/
def naField (w : CmdWord) : Bool := w.getLsbD 7

/-- R47, bit 6. -/
def reservedField (w : CmdWord) : Bool := w.getLsbD 6

/-- R47, bits 5:0. -/
def wm1Field (w : CmdWord) : BitVec 6 := w.extractLsb' 0 6

/-- R51: `W = uint(wm1) + 1`, 1..64. -/
def widthOfField (wm1 : BitVec 6) : Nat := wm1.toNat + 1

/-- The opcode column of R53. -/
def Op.code (o : Op) : BitVec 8 :=
  match o with
  | .nop => 0x00#8
  | .rdStatus => 0x01#8
  | .clrFlags => 0x02#8
  | .rdPlen => 0x03#8
  | .encU => 0x10#8
  | .encS => 0x11#8
  | .encSM => 0x12#8
  | .decU => 0x18#8
  | .decS => 0x19#8
  | .decSM => 0x1A#8
  | .crcInit => 0x20#8
  | .crcByte => 0x21#8
  | .crcRd => 0x22#8
  | .payClr => 0x30#8
  | .buildFrame => 0x31#8
  | .chkStart => 0x38#8
  | .chkByte => 0x39#8
  | .chkResult => 0x3A#8

/-- The class column of R53, with the lists of R48. -/
def Op.formatClass (o : Op) : FormatClass :=
  match o with
  | .nop => .z
  | .rdStatus => .z
  | .clrFlags => .d
  | .rdPlen => .z
  | .encU => .we
  | .encS => .we
  | .encSM => .we
  | .decU => .wd
  | .decS => .wd
  | .decSM => .wd
  | .crcInit => .z
  | .crcByte => .d
  | .crcRd => .z
  | .payClr => .z
  | .buildFrame => .z
  | .chkStart => .z
  | .chkByte => .d
  | .chkResult => .z

/-- All eighteen, in the table's order. -/
def allOps : List Op :=
  [.nop, .rdStatus, .clrFlags, .rdPlen, .encU, .encS, .encSM, .decU, .decS, .decSM,
   .crcInit, .crcByte, .crcRd, .payClr, .buildFrame, .chkStart, .chkByte, .chkResult]

/-- R50, first step: the row whose `op` this is, or none (R55: the reserved opcodes). -/
def opOfCode (b : BitVec 8) : Option Op := allOps.find? (fun o => o.code == b)

/-- R48: may `na` be 1 in this class? -/
def FormatClass.usesNa (k : FormatClass) : Bool :=
  match k with
  | .we => true
  | .wd => false
  | .z => false
  | .d => false

/-- R48: may `wm1` be other than 0 in this class? -/
def FormatClass.usesWidth (k : FormatClass) : Bool :=
  match k with
  | .we => true
  | .wd => true
  | .z => false
  | .d => false

/-- The command an `op` names, with the operand fields it uses (R48, R50). -/
def assembleOp (o : Op) (na : Bool) (width : Nat) (data : Word) : Instr :=
  match o with
  | .nop => .nop
  | .rdStatus => .rdStatus
  | .clrFlags => .clrFlags data
  | .rdPlen => .rdPlen
  | .encU => .encU na width data
  | .encS => .encS na width data
  | .encSM => .encSM na width data
  | .decU => .decU width data
  | .decS => .decS width data
  | .decSM => .decSM width data
  | .crcInit => .crcInit
  | .crcByte => .crcByte data
  | .crcRd => .crcRd
  | .payClr => .payClr
  | .buildFrame => .buildFrame
  | .chkStart => .chkStart
  | .chkByte => .chkByte data
  | .chkResult => .chkResult

/-- R50: `op` first, then the bits its class says must be zero. No bit of `data` takes part. -/
def decode (c : Command) : Except DecodeError Instr :=
  match opOfCode (opField c.cmd) with
  | none => .error .unassignedOpcode
  | some o =>
    if reservedField c.cmd then .error .reservedBitSet
    else if naField c.cmd && !o.formatClass.usesNa then .error .naNotZero
    else if wm1Field c.cmd != 0#6 && !o.formatClass.usesWidth then .error .widthNotZero
    else .ok (assembleOp o (naField c.cmd) (widthOfField (wm1Field c.cmd)) c.data)

/-! ## The encoder -/

/-- The mnemonic of a command. -/
def opOf (i : Instr) : Op :=
  match i with
  | .nop => .nop
  | .rdStatus => .rdStatus
  | .clrFlags _ => .clrFlags
  | .rdPlen => .rdPlen
  | .encU _ _ _ => .encU
  | .encS _ _ _ => .encS
  | .encSM _ _ _ => .encSM
  | .decU _ _ => .decU
  | .decS _ _ => .decS
  | .decSM _ _ => .decSM
  | .crcInit => .crcInit
  | .crcByte _ => .crcByte
  | .crcRd => .crcRd
  | .payClr => .payClr
  | .buildFrame => .buildFrame
  | .chkStart => .chkStart
  | .chkByte _ => .chkByte
  | .chkResult => .chkResult

/-- The command word of R47: `op` in bits 15:8, `na` in bit 7, 0 in bit 6, `wm1` in bits 5:0. -/
def cmdWordOf (o : Op) (na : Bool) (wm1 : BitVec 6) : CmdWord := o.code ++ BitVec.ofBool na ++ 0#1 ++ wm1

/-- R56: the width `W` assembles to `wm1 = W - 1`. -/
def fieldOfWidth (width : Nat) : BitVec 6 := BitVec.ofNat 6 (width - 1)

/-- The word and operand of a command. A command of class Z is given the operand 0, which it ignores. -/
def encode (i : Instr) : Command :=
  match i with
  | .encU na w d => ⟨cmdWordOf .encU na (fieldOfWidth w), d⟩
  | .encS na w d => ⟨cmdWordOf .encS na (fieldOfWidth w), d⟩
  | .encSM na w d => ⟨cmdWordOf .encSM na (fieldOfWidth w), d⟩
  | .decU w d => ⟨cmdWordOf .decU false (fieldOfWidth w), d⟩
  | .decS w d => ⟨cmdWordOf .decS false (fieldOfWidth w), d⟩
  | .decSM w d => ⟨cmdWordOf .decSM false (fieldOfWidth w), d⟩
  | .clrFlags d => ⟨cmdWordOf .clrFlags false 0#6, d⟩
  | .crcByte d => ⟨cmdWordOf .crcByte false 0#6, d⟩
  | .chkByte d => ⟨cmdWordOf .chkByte false 0#6, d⟩
  | .nop => ⟨cmdWordOf .nop false 0#6, 0#64⟩
  | .rdStatus => ⟨cmdWordOf .rdStatus false 0#6, 0#64⟩
  | .rdPlen => ⟨cmdWordOf .rdPlen false 0#6, 0#64⟩
  | .crcInit => ⟨cmdWordOf .crcInit false 0#6, 0#64⟩
  | .crcRd => ⟨cmdWordOf .crcRd false 0#6, 0#64⟩
  | .payClr => ⟨cmdWordOf .payClr false 0#6, 0#64⟩
  | .buildFrame => ⟨cmdWordOf .buildFrame false 0#6, 0#64⟩
  | .chkStart => ⟨cmdWordOf .chkStart false 0#6, 0#64⟩
  | .chkResult => ⟨cmdWordOf .chkResult false 0#6, 0#64⟩

/-- The same command with another operand on the port; a class Z command holds none and stays as it is. -/
def withData (i : Instr) (d : Word) : Instr :=
  match i with
  | .encU na w _ => .encU na w d
  | .encS na w _ => .encS na w d
  | .encSM na w _ => .encSM na w d
  | .decU w _ => .decU w d
  | .decS w _ => .decS w d
  | .decSM w _ => .decSM w d
  | .clrFlags _ => .clrFlags d
  | .crcByte _ => .crcByte d
  | .chkByte _ => .chkByte d
  | .nop => .nop
  | .rdStatus => .rdStatus
  | .rdPlen => .rdPlen
  | .crcInit => .crcInit
  | .crcRd => .crcRd
  | .payClr => .payClr
  | .buildFrame => .buildFrame
  | .chkStart => .chkStart
  | .chkResult => .chkResult

/-! ## The match and mask table of R53 -/

/-- A row of R53. -/
structure OpcodeRow where
  op : Op
  pattern : CmdWord
  mask : CmdWord
  deriving DecidableEq, Repr

/-- R53: a word selects the row when `w & mask = match`. -/
def OpcodeRow.selects (r : OpcodeRow) (w : CmdWord) : Bool := w &&& r.mask == r.pattern

/-- The table of R53 as the spec and opcode_table.json write it. -/
def opcodeRows : List OpcodeRow :=
  [⟨.nop, 0x0000#16, 0xFFFF#16⟩,
   ⟨.rdStatus, 0x0100#16, 0xFFFF#16⟩,
   ⟨.clrFlags, 0x0200#16, 0xFFFF#16⟩,
   ⟨.rdPlen, 0x0300#16, 0xFFFF#16⟩,
   ⟨.encU, 0x1000#16, 0xFF40#16⟩,
   ⟨.encS, 0x1100#16, 0xFF40#16⟩,
   ⟨.encSM, 0x1200#16, 0xFF40#16⟩,
   ⟨.decU, 0x1800#16, 0xFFC0#16⟩,
   ⟨.decS, 0x1900#16, 0xFFC0#16⟩,
   ⟨.decSM, 0x1A00#16, 0xFFC0#16⟩,
   ⟨.crcInit, 0x2000#16, 0xFFFF#16⟩,
   ⟨.crcByte, 0x2100#16, 0xFFFF#16⟩,
   ⟨.crcRd, 0x2200#16, 0xFFFF#16⟩,
   ⟨.payClr, 0x3000#16, 0xFFFF#16⟩,
   ⟨.buildFrame, 0x3100#16, 0xFFFF#16⟩,
   ⟨.chkStart, 0x3800#16, 0xFFFF#16⟩,
   ⟨.chkByte, 0x3900#16, 0xFFFF#16⟩,
   ⟨.chkResult, 0x3A00#16, 0xFFFF#16⟩]

/-! ## The command as one number (opcode_table.json's numbering) -/

/-- The command whose bits are `w`, of which the first `nbits` count and the rest are 0: bits 15:0 are `cmd`, and the
operand word `data`, to which the table gives no bits, follows in bits 79:16. -/
def commandOfTableWord (nbits w : Nat) : Command :=
  let v := w % 2 ^ nbits
  ⟨BitVec.ofNat 16 v, BitVec.ofNat 64 (v / 2 ^ 16)⟩

/-- What the decoder reads from that command, or none where it is illegal. -/
def decodeTableWord (nbits w : Nat) : Option Instr :=
  match decode (commandOfTableWord nbits w) with
  | .ok i => some i
  | .error _ => none

/-! ## Pseudo-commands (R57 to R59) -/

/-- Which encoder a field of `FRAME` uses (R58). -/
inductive FieldKind where
  | u | s | sm
  deriving DecidableEq, Repr

/-- One field `(k W v)` of `FRAME` (R58). -/
structure FieldSpec where
  kind : FieldKind
  width : Nat
  value : Word
  deriving DecidableEq, Repr

/-- `ENC_k W, v` with `na` as given. -/
def encodeInstr (k : FieldKind) (na : Bool) (width : Nat) (v : Word) : Instr :=
  match k with
  | .u => .encU na width v
  | .s => .encS na width v
  | .sm => .encSM na width v

/-- `DEC_k W, v`. -/
def decodeInstr (k : FieldKind) (width : Nat) (v : Word) : Instr :=
  match k with
  | .u => .decU width v
  | .s => .decS width v
  | .sm => .decSM width v

/-- R57: `CRC24Q b0 ... b(n-1)`. -/
def pseudoCrc24q (bytes : List Byte) : List Instr :=
  .crcInit :: bytes.map (fun b => .crcByte (b.setWidth 64)) ++ [.crcRd]

/-- R58: `FRAME (k1 W1 v1) ... (km Wm vm)`. -/
def pseudoFrame (fields : List FieldSpec) : List Instr :=
  .payClr :: fields.map (fun f => encodeInstr f.kind false f.width f.value) ++ [.buildFrame]

/-- R59: `CHECK b0 ... b(n-1)`. -/
def pseudoCheck (bytes : List Byte) : List Instr :=
  .chkStart :: bytes.map (fun b => .chkByte (b.setWidth 64)) ++ [.chkResult]

end Sys2Proof
end

