-- ==== Sys2Proof/Machine/State.lean ====
section
/-!
DEFINITION. The state of the block: the eleven elements of spec 10_state.md R13, and the two ports of R14 as the model's own
fields (log entries 1 and 2). Plain data throughout. Also the reasons a step can stop, of which there is none in use:
no command traps, faults, stalls or hangs (60_exceptions.md R117).
-/

namespace Sys2Proof.Machine

/-- One element of the output stream: a byte and the marker of a frame's final byte (10_state.md R19). -/
structure Beat where
  byte : Byte
  last : Bool
  deriving DecidableEq, Repr

/-- The block's answer to one command (30_encoding.md R49). -/
structure Response where
  stat : BitVec 8
  value : Word
  deriving DecidableEq, Repr

/-- What the host may do to the block between two steps (00_scope.md R6, 70_reset_and_hazards.md R137). -/
inductive HostAction where
  /-- Issue a command on the command port. -/
  | command (c : Command)
  /-- Assert the reset input (R126). -/
  | reset
  deriving DecidableEq, Repr

/-- The reasons a step may stop with a fault: none. 60_exceptions.md R117: "A model's step function for this block is total
and has neither a fault outcome nor a stuck outcome." -/
inductive Fault
  deriving DecidableEq, Repr

/-- The reasons a step may refuse an instruction. -/
inductive Refusal where
  /-- An instruction whose arm of `exec` has no meaning yet. No arm raises it: every command has its meaning. It would be
  safe: the model stops where the hardware goes on. -/
  | notModelled (mnemonic : String)
  deriving DecidableEq, Repr

/-- The state. The docstrings name the rule of 10_state.md. -/
structure State where
  /-- R16: the running CRC-24Q of the generator. -/
  crc : Crc
  /-- R17: the payload assembled so far, in wire order. -/
  pbuf : List Bool
  /-- R18: the number of bits in `pbuf`, held in 14 bits. -/
  plen : BitVec 14
  /-- R19: everything emitted so far, oldest first. -/
  out : List Beat
  /-- R20: a RangeWarning has happened; sticky. -/
  warn : Bool
  /-- R21: an append was refused for lack of room; sticky. -/
  ovf : Bool
  /-- R22: an illegal command was issued; sticky. -/
  err : Bool
  /-- R23: `match`, the result of the last `CHK_RESULT`. -/
  matchFlag : Bool
  /-- R25: the checker's running CRC-24Q. -/
  rcrc : Crc
  /-- R26: the last three bytes given to the checker. -/
  hold : BitVec 24
  /-- R27: how many bytes `hold` holds, saturating at 3. -/
  rcnt : BitVec 2
  /-- The model's own field (log entry 1): the host's actions still to come, the next one first (00_scope.md R6, R7). -/
  pending : List HostAction
  /-- The model's own field (log entry 2): the response port, holding the response to the command just executed
  (30_encoding.md R49); the value cannot be read again by any command (10_state.md R14). -/
  resp : Option Response
  deriving DecidableEq, Repr

/-- 70_reset_and_hazards.md R127: the reset state, with `out` empty as at the start of a run; the host has issued nothing
yet and no response stands on the port (DESIGN CHOICE, log entries 1 and 2). -/
def State.reset : State where
  crc := 0x000000#24
  pbuf := []
  plen := 0#14
  out := []
  warn := false
  ovf := false
  err := false
  matchFlag := false
  rcrc := 0x000000#24
  hold := 0x000000#24
  rcnt := 0#2
  pending := []
  resp := none

end Sys2Proof.Machine
end

