-- ==== Sys2Proof/Machine/Bits.lean ====
section
/-!
DEFINITION. Bit strings and wire order (spec 00_scope.md R9, 20_memory.md R34, R35): the first bit of a list is the first on
the wire, a field is written most significant bit first, and a byte's most significant bit comes first.
-/

namespace Sys2Proof.Machine

/-- R9: `str(f) = f[W-1] f[W-2] ... f[0]`. -/
def str {w : Nat} (f : BitVec w) : List Bool := (List.range w).map (fun i => f.getLsbD (w - 1 - i))

/-- R9: `0^k`. -/
def zeros (k : Nat) : List Bool := List.replicate k false

/-- R9: a bit string whose length is a multiple of 8, read as bytes: bit `8k + j` is bit `7 - j` of byte k. Bits left over
when the length is no multiple of 8 make no byte (log entry 5); the packer pads first (42_frame.md R94). -/
def bytesOf (s : List Bool) : List Byte :=
  match s with
  | b7 :: b6 :: b5 :: b4 :: b3 :: b2 :: b1 :: b0 :: rest =>
    (BitVec.ofBool b7 ++ BitVec.ofBool b6 ++ BitVec.ofBool b5 ++ BitVec.ofBool b4 ++
      BitVec.ofBool b3 ++ BitVec.ofBool b2 ++ BitVec.ofBool b1 ++ BitVec.ofBool b0) :: bytesOf rest
  | _ => []

/-- A byte sequence as the bit string it stands for on the wire (R9). -/
def bitsOf (bytes : List Byte) : List Bool := bytes.flatMap (fun b => str b)

/-- R35: the three bytes of a 24-bit value, most significant first: `c[23:16] c[15:8] c[7:0]`. -/
def threeBytes (c : BitVec 24) : List Byte := [c.extractLsb' 16 8, c.extractLsb' 8 8, c.extractLsb' 0 8]

end Sys2Proof.Machine
end

