-- ==== Sys2Proof/Machine/Operands.lean ====
section
/-!
DEFINITION. The operand forms of spec 30_encoding.md R52: how each command reads `data`. Bits a form does not name are ignored.
-/

namespace Sys2Proof.Machine

/-- `ENC_U`: `data[63:0]` as the unsigned integer `uint(data)`, 0 .. 2^64-1. -/
abbrev operandUnsigned (data : Word) : Nat := data.toNat

/-- `ENC_S`, `ENC_SM`: `data[63:0]` as the two's-complement integer `sint(data)`, -2^63 .. 2^63-1. -/
abbrev operandSigned (data : Word) : Int := data.toInt

/-- `DEC_*`: the W-bit field `data[W-1:0]`, its first wire bit at `data[W-1]`. -/
abbrev operandField (width : Nat) (data : Word) : BitVec width := data.setWidth width

/-- `CRC_BYTE`, `CHK_BYTE`: the byte `data[7:0]`, its first wire bit at `data[7]`. -/
abbrev operandByte (data : Word) : Byte := data.extractLsb' 0 8

/-- `CLR_FLAGS`: the write-one-to-clear mask `data[2:0]` for `err`, `ovf`, `warn`. -/
abbrev operandClearMask (data : Word) : BitVec 3 := data.extractLsb' 0 3

end Sys2Proof.Machine
end

