-- ==== Sys2Proof/Machine/Flags.lean ====
section
/-!
DEFINITION. The events (spec 60_exceptions.md R118), the status register (10_state.md R24) and the response status
(30_encoding.md R49).
-/

namespace Sys2Proof.Machine

/-- R118: the events, complete. -/
inductive Event where
  /-- The operand of an encode is outside the W-bit range of the format: `warn`, `ev_warn`. -/
  | rangeWarning
  /-- An append was refused, `plen + W > 8184`: `ovf`, `ev_ovf`. -/
  | payloadOverflow
  /-- A command word no row of 30_encoding.md R53 matches: `err`, `ev_err`. -/
  | illegalCommand
  /-- The checker's CRC does not agree: `match` = 0; no bit of its own in the response. -/
  | crcMismatch
  deriving DecidableEq, Repr

/-- R24: `STATUS`, the read-only view of the four flags: `warn` bit 0, `ovf` bit 1, `err` bit 2, `match` bit 3, bits 7:4 zero. -/
def statusReg (s : State) : BitVec 8 :=
  0#4 ++ BitVec.ofBool s.matchFlag ++ BitVec.ofBool s.err ++ BitVec.ofBool s.ovf ++ BitVec.ofBool s.warn

/-- R49: the response status: bits 3:0 are `STATUS[3:0]` after the command's writes, bits 4, 5, 6 are `ev_warn`, `ev_ovf`,
`ev_err` of this command alone, bit 7 is 0. -/
def statOf (events : List Event) (s : State) : BitVec 8 :=
  0#1 ++ BitVec.ofBool (events.contains .illegalCommand) ++ BitVec.ofBool (events.contains .payloadOverflow) ++
    BitVec.ofBool (events.contains .rangeWarning) ++ (statusReg s).extractLsb' 0 4

end Sys2Proof.Machine
end

