-- ==== Sys2Proof/Machine/Ops.lean ====
section
/-!
DEFINITION. The named operations over the state: the host's port, the payload buffer (spec 20_memory.md R32), the output stream
(R33), the registers, what an event does in place of a trap (60_exceptions.md R121) and its clearing in place of a
return (R122), the response (30_encoding.md R49), the illegal command (R54) and the reset input (70_reset_and_hazards.md R126).
-/

namespace Sys2Proof.Machine

/-- The canonical form of the payload memory (10_state.md R17, R18, R29): `pbuf` holds exactly `plen` bits, at most 8184. -/
def Memory.wf (pbuf : List Bool) (plen : BitVec 14) : Bool :=
  pbuf.length == plen.toNat && decide (plen.toNat ≤ Config.pbufBits)

/-! ## The command port -/

/-- The host's next action and the state in which the block takes it: the action leaves `pending`. -/
def takeAction (s : State) : Option (HostAction × State) :=
  match s.pending with
  | [] => none
  | a :: rest => some (a, { s with pending := rest })

/-- No command is on the port: the block is idle and nothing changes (60_exceptions.md R124; log entry 3). -/
def idle (s : State) : Host.Outcome State Fault Refusal := .next s

/-! ## Events, in place of exceptions -/

/-- R121: what an event does: it sets its flag to 1, or for CrcMismatch writes `match` = 0. No state is saved, no mode changes,
control goes nowhere. -/
def raiseEvent (e : Event) (s : State) : State :=
  match e with
  | .rangeWarning => { s with warn := true }
  | .payloadOverflow => { s with ovf := true }
  | .illegalCommand => { s with err := true }
  | .crcMismatch => { s with matchFlag := false }

/-- Every event of a list, each by R121; they are independent (R120). -/
def raiseEvents (events : List Event) (s : State) : State := events.foldl (fun t e => raiseEvent e t) s

/-- R122, R113: clearing in place of a return: the flags whose mask bit is 1 (bit 0 `warn`, bit 1 `ovf`, bit 2 `err`) become 0;
`match` is never touched. -/
def clearFlags (mask : BitVec 3) (s : State) : State :=
  { s with
    warn := s.warn && !mask.getLsbD 0
    ovf := s.ovf && !mask.getLsbD 1
    err := s.err && !mask.getLsbD 2 }

/-- R49, `respond(v)`: the response to this command, sampled after its writes, with the bits of the events it raised. -/
def respond (events : List Event) (v : Word) (s : State) : State := { s with resp := some ⟨statOf events s, v⟩ }

/-- The end of a step of a command that raised `events` and answers `v`. -/
def complete (events : List Event) (v : Word) (s : State) : Host.Outcome State Fault Refusal :=
  .next (respond events v s)

/-- R54: an illegal command sets `err`, answers 0, and does nothing else, whatever made it illegal. -/
def illegalCommand (_why : DecodeError) (s : State) : Host.Outcome State Fault Refusal :=
  complete [.illegalCommand] 0#64 (raiseEvent .illegalCommand s)

/-! ## The payload buffer -/

/-- R32: does a field of `width` bits fit? The sum is exact (40_bitfield.md R79 e). -/
def appendFits (width : Nat) (s : State) : Bool := decide (s.plen.toNat + width ≤ Config.pbufBits)

/-- R32: the bits of `f` behind those of `pbuf`, most significant first, and `plen` advanced by its width. -/
def pushField {w : Nat} (f : BitVec w) (s : State) : State :=
  { s with pbuf := s.pbuf ++ str f, plen := BitVec.ofNat 14 (s.plen.toNat + w) }

/-- R32, `PbufAppend(f, W)`, the only write to the payload buffer: the whole field, or none of it and PayloadOverflow. Answers the
events raised and the state after. -/
def pbufAppend {w : Nat} (f : BitVec w) (s : State) : List Event × State :=
  if appendFits w s then ([], pushField f s) else ([.payloadOverflow], raiseEvent .payloadOverflow s)

/-- 42_frame.md R98: the buffer emptied. -/
def clearPayload (s : State) : State := { s with pbuf := [], plen := 0#14 }

/-! ## The output stream -/

/-- R33: `emit(b, last)` appends one beat at the end of `out`; it always succeeds. -/
def emit (b : Beat) (s : State) : State := { s with out := s.out ++ [b] }

/-- `emit` of each beat in order. -/
def emitAll (beats : List Beat) (s : State) : State := beats.foldl (fun t b => emit b t) s

/-! ## Registers -/

/-- `crc <- c`. -/
def writeCrc (c : Crc) (s : State) : State := { s with crc := c }

/-- `match <- v`. -/
def writeMatch (v : Bool) (s : State) : State := { s with matchFlag := v }

/-- The checker's three registers together. -/
def writeChecker (rcrc : Crc) (hold : BitVec 24) (rcnt : BitVec 2) (s : State) : State :=
  { s with rcrc := rcrc, hold := hold, rcnt := rcnt }

/-! ## The reset input -/

/-- 70_reset_and_hazards.md R126: every element at its reset value, except `out`: beats already emitted are not retracted. What the
host does next is the host's (log entry 1), and no response stands on the port (log entry 2). -/
def assertReset (s : State) : State := { State.reset with out := s.out, pending := s.pending }

end Sys2Proof.Machine
end

