-- ==== Sys2Proof/Machine/Formats.lean ====
section
/-!
DEFINITION. The three field formats and their functions (spec 40_bitfield.md R61 to R66): `enc_u`, `enc_s`, `enc_sm` and their
inverses. An encode function answers the W-bit field and whether the integer was in the field's range; an integer out of
range is truncated (wraps) and never clamped (90_conflicts.md C2; log entry 7).
-/

namespace Sys2Proof.Machine

/-- What an encode function returns: the field `f` and `inr`, whether x was in range. -/
structure Encoded (w : Nat) where
  f : BitVec w
  inr : Bool
  deriving DecidableEq, Repr

/-- R61: `enc_u(x, W)`. -/
def encU (x w : Nat) : Encoded w :=
  ⟨BitVec.ofNat w x, decide (x ≤ 2 ^ w - 1)⟩

/-- R62: `enc_s(x, W)`. -/
def encS (x : Int) (w : Nat) : Encoded w :=
  ⟨BitVec.ofInt w x, decide (-((2 ^ (w - 1) : Nat) : Int) ≤ x ∧ x ≤ ((2 ^ (w - 1) : Nat) : Int) - 1)⟩

/-- R63: `enc_sm(x, W)`: the sign in the field's most significant bit, below it the low W-1 bits of the magnitude. -/
def encSM (x : Int) (w : Nat) : Encoded w :=
  let s := if x < 0 then 1 else 0
  let m := x.natAbs
  ⟨BitVec.ofNat w (s * 2 ^ (w - 1) + m % 2 ^ (w - 1)), decide (m ≤ 2 ^ (w - 1) - 1)⟩

/-- R64: `dec_u(f, W) = uint(f)`. -/
def decU {w : Nat} (f : BitVec w) : Nat := f.toNat

/-- R65: `dec_s(f, W) = sint(f)`. -/
def decS {w : Nat} (f : BitVec w) : Int := f.toInt

/-- R66: `dec_sm(f, W)`: `-m` when `f[W-1] = 1`, else `m`, with `m = uint(f[W-2:0])`. -/
def decSM {w : Nat} (f : BitVec w) : Int :=
  let m := f.toNat % 2 ^ (w - 1)
  if f.getLsbD (w - 1) then -(m : Int) else m

end Sys2Proof.Machine
end

