-- ==== Sys2Proof/Machine/BitField.lean ====
section
/-!
DEFINITION. The bit-field commands: `ENC_U`, `ENC_S`, `ENC_SM`, `DEC_U`, `DEC_S`, `DEC_SM` (spec 40_bitfield.md R67 to R73).
-/

namespace Sys2Proof.Machine

/-- R67: the common behaviour of the encode commands. The range check and the append are independent; with `na` set the buffer,
`plen` and `ovf` are not touched. The field is answered in every case. -/
def encodeAndAppend {w : Nat} (e : Encoded w) (na : Bool) (s : State) : Host.Outcome State Fault Refusal :=
  let rangeEvents := if e.inr then [] else [Event.rangeWarning]
  let s1 := raiseEvents rangeEvents s
  let (appendEvents, s2) := if na then ([], s1) else pbufAppend e.f s1
  complete (rangeEvents ++ appendEvents) (e.f.setWidth 64) s2

/-- R68. -/
def execEncU (na : Bool) (width : Nat) (data : Word) (s : State) : Host.Outcome State Fault Refusal :=
  encodeAndAppend (encU (operandUnsigned data) width) na s

/-- R69. -/
def execEncS (na : Bool) (width : Nat) (data : Word) (s : State) : Host.Outcome State Fault Refusal :=
  encodeAndAppend (encS (operandSigned data) width) na s

/-- R70. -/
def execEncSM (na : Bool) (width : Nat) (data : Word) (s : State) : Host.Outcome State Fault Refusal :=
  encodeAndAppend (encSM (operandSigned data) width) na s

/-- R71: `zext_64(data[W-1:0])`. -/
def execDecU (width : Nat) (data : Word) (s : State) : Host.Outcome State Fault Refusal :=
  complete [] ((operandField width data).setWidth 64) s

/-- R72: `sext_64(data[W-1:0])`. -/
def execDecS (width : Nat) (data : Word) (s : State) : Host.Outcome State Fault Refusal :=
  complete [] ((operandField width data).signExtend 64) s

/-- R73: the magnitude `data[W-2:0]` (0 when W = 1), negated in 64 bits when the sign `data[W-1]` is 1. -/
def execDecSM (width : Nat) (data : Word) (s : State) : Host.Outcome State Fault Refusal :=
  let sign := (operandField width data).getLsbD (width - 1)
  let m : Word := (data.setWidth (width - 1)).setWidth 64
  complete [] (if sign then -m else m) s

end Sys2Proof.Machine
end

