-- ==== Sys2Proof/Machine/Control.lean ====
section
/-!
DEFINITION. The control and status commands: `NOP`, `RD_STATUS`, `CLR_FLAGS`, `RD_PLEN` (spec 43_control.md R111 to R114).
-/

namespace Sys2Proof.Machine

/-- R111: the response's `stat` still carries the current `STATUS`. -/
def execNop (s : State) : Host.Outcome State Fault Refusal := complete [] 0#64 s

/-- R112. -/
def execRdStatus (s : State) : Host.Outcome State Fault Refusal :=
  complete [] ((statusReg s).setWidth 64) s

/-- R113: write one to clear; answers `STATUS` after the clearing. -/
def execClrFlags (data : Word) (s : State) : Host.Outcome State Fault Refusal :=
  let t := clearFlags (operandClearMask data) s
  complete [] ((statusReg t).setWidth 64) t

/-- R114. -/
def execRdPlen (s : State) : Host.Outcome State Fault Refusal :=
  complete [] (s.plen.setWidth 64) s

end Sys2Proof.Machine
end

