-- ==== Sys2Proof/Machine/Crc.lean ====
section
/-!
DEFINITION. The CRC-24Q generator (spec 41_crc24q.md): the function bit by bit (R81 to R83) and its three commands (R87 to R89). Bytes
enter in wire order, most significant bit first; the result is neither reflected nor XORed (R83, R84; 90_conflicts.md C1).
-/

namespace Sys2Proof.Machine

/-- R81: one message bit `d` into the register `c`. -/
def crcBit (c : Crc) (d : Bool) : Crc :=
  let fb := c.getLsbD 23 ^^ d
  let shifted := c <<< 1
  if fb then shifted ^^^ Config.crcPoly else shifted

/-- R82: one byte, bit 7 first. -/
def crcByte (c : Crc) (b : Byte) : Crc :=
  [7, 6, 5, 4, 3, 2, 1, 0].foldl (fun r i => crcBit r (b.getLsbD i)) c

/-- R83: a byte sequence, the first on the wire first, from the initial value. -/
def crc24q (bytes : List Byte) : Crc := bytes.foldl crcByte Config.crcInit

/-- R87. -/
def execCrcInit (s : State) : Host.Outcome State Fault Refusal :=
  complete [] 0#64 (writeCrc Config.crcInit s)

/-- R88: answers the new value of `crc`. -/
def execCrcByte (data : Word) (s : State) : Host.Outcome State Fault Refusal :=
  let c := crcByte s.crc (operandByte data)
  complete [] (c.setWidth 64) (writeCrc c s)

/-- R89. -/
def execCrcRd (s : State) : Host.Outcome State Fault Refusal :=
  complete [] (s.crc.setWidth 64) s

end Sys2Proof.Machine
end

