-- ==== Sys2Proof/Machine/Frame.lean ====
section
/-!
DEFINITION. The frame packer and checker (spec 42_frame.md): the frame's parts and the functions `build_frame` (R94) and
`check_frame` (R96), and the commands `PAY_CLR`, `BUILD_FRAME`, `CHK_START`, `CHK_BYTE`, `CHK_RESULT` (R98 to R102).
-/

namespace Sys2Proof.Machine

/-- R95: the number of payload bytes, `(n + 7) >> 3`. -/
def payloadBytes (n : Nat) : Nat := (n + 7) >>> 3

/-- R94: the payload and 0..7 zero bits up to a byte boundary. -/
def padded (payload : List Bool) : List Bool :=
  payload ++ zeros (8 * payloadBytes payload.length - payload.length)

/-- R94: preamble, six reserved zero bits, the 10-bit length. -/
def header (len : Nat) : List Bool :=
  str Config.preamble ++ zeros Config.reservedBits ++ str (encU len Config.lenBits).f

/-- R94: the bytes the CRC covers: header and padded payload. -/
def frameBody (payload : List Bool) : List Byte := bytesOf (header (payloadBytes payload.length) ++ padded payload)

/-- R94: the CRC of the frame. -/
def frameCrc (payload : List Bool) : Crc := crc24q (frameBody payload)

/-- R94: `build_frame(P)`. -/
def buildFrame (payload : List Bool) : List Byte := frameBody payload ++ threeBytes (frameCrc payload)

/-- R99: the beats of a frame's bytes: `last` is 1 on the final byte only. -/
def beatsOf (bytes : List Byte) : List Beat :=
  bytes.mapIdx (fun k b => ⟨b, decide (k + 1 = bytes.length)⟩)

/-- R96: `check_frame(B)`: the CRC of all but the last three bytes against the last three. -/
def checkFrame (bytes : List Byte) : Bool :=
  let n := bytes.length
  if n < 3 then false
  else threeBytes (crc24q (bytes.take (n - 3))) == bytes.drop (n - 3)

/-- R98. -/
def execPayClr (s : State) : Host.Outcome State Fault Refusal :=
  complete [] 0#64 (clearPayload s)

/-- R99: the whole frame is emitted in this one step; the payload stays; no flag is read or written. -/
def execBuildFrame (s : State) : Host.Outcome State Fault Refusal :=
  let c := frameCrc s.pbuf
  complete [] (c.setWidth 64) (writeCrc c (emitAll (beatsOf (buildFrame s.pbuf)) s))

/-- R100. -/
def execChkStart (s : State) : Host.Outcome State Fault Refusal :=
  complete [] 0#64 (writeMatch false (writeChecker Config.crcInit 0#24 0#2 s))

/-- R101: the byte shifted into `hold`; the byte that falls out enters `rcrc` once `hold` is full. -/
def execChkByte (data : Word) (s : State) : Host.Outcome State Fault Refusal :=
  let full := s.rcnt == 3#2
  let rcrc := if full then crcByte s.rcrc (s.hold.extractLsb' 16 8) else s.rcrc
  let rcnt := if full then s.rcnt else s.rcnt + 1#2
  let hold := s.hold <<< 8 ||| (operandByte data).setWidth 24
  complete [] 0#64 (writeChecker rcrc hold rcnt s)

/-- R102: the verdict: `match` becomes 1 when the CRC agrees, else the event CrcMismatch writes it 0 (60_exceptions.md R118). -/
def execChkResult (s : State) : Host.Outcome State Fault Refusal :=
  if s.rcnt == 3#2 && s.rcrc == s.hold then complete [] 1#64 (writeMatch true s)
  else complete [.crcMismatch] 0#64 (raiseEvent .crcMismatch s)

end Sys2Proof.Machine
end

