-- ==== Sys2Proof/Machine/Dispatch.lean ====
section
/-! DEFINITION. One arm for each command (spec 30_encoding.md R53), each one call of that command's meaning. -/

namespace Sys2Proof.Machine

def exec (i : Instr) (s : State) : Host.Outcome State Fault Refusal :=
  match i with
  | .nop => Sys2Proof.Machine.execNop s
  | .rdStatus => Sys2Proof.Machine.execRdStatus s
  | .clrFlags data => Sys2Proof.Machine.execClrFlags data s
  | .rdPlen => Sys2Proof.Machine.execRdPlen s
  | .encU na width data => Sys2Proof.Machine.execEncU na width data s
  | .encS na width data => Sys2Proof.Machine.execEncS na width data s
  | .encSM na width data => Sys2Proof.Machine.execEncSM na width data s
  | .decU width data => Sys2Proof.Machine.execDecU width data s
  | .decS width data => Sys2Proof.Machine.execDecS width data s
  | .decSM width data => Sys2Proof.Machine.execDecSM width data s
  | .crcInit => Sys2Proof.Machine.execCrcInit s
  | .crcByte data => Sys2Proof.Machine.execCrcByte data s
  | .crcRd => Sys2Proof.Machine.execCrcRd s
  | .payClr => Sys2Proof.Machine.execPayClr s
  | .buildFrame => Sys2Proof.Machine.execBuildFrame s
  | .chkStart => Sys2Proof.Machine.execChkStart s
  | .chkByte data => Sys2Proof.Machine.execChkByte data s
  | .chkResult => Sys2Proof.Machine.execChkResult s

end Sys2Proof.Machine
end

