-- ==== Sys2Proof/Machine/Step.lean ====
section
/-!
DEFINITION. One step of the block: the complete execution of the host's next action (spec 00_scope.md R6, 30_encoding.md R50, R54,
70_reset_and_hazards.md R126). It always answers a next state (60_exceptions.md R117).
-/

namespace Sys2Proof.Machine

/-- The host's next action, taken off the port and executed to completion. -/
def step (s : State) : Host.Outcome State Fault Refusal :=
  match takeAction s with
  | none => idle s
  | some (.reset, t) => .next (assertReset t)
  | some (.command c, t) =>
    match decode c with
    | .ok i => exec i t
    | .error why => illegalCommand why t

/-- `s` with the host about to issue the command whose table bits are `w` (the first `nbits` of them, the rest 0): the next step
executes exactly that command. Nothing else changes. -/
def State.withFetchWord (s : State) (nbits w : Nat) : State :=
  { s with pending := .command (commandOfTableWord nbits w) :: s.pending }

end Sys2Proof.Machine
end

