-- ==== Sys2Proof/Machine/Asm.lean ====
section
/-!
DEFINITION. The textual form of a command, one a line (spec 30_encoding.md R56). There is no toolchain; the form is the one the spec's
test vectors are written in. Lines are lists of characters.
-/

namespace Sys2Proof.Machine

/-- R56: a semicolon starts a comment, and an arrow starts a listing's note of the response; both end the command. -/
def stripComment (line : List Char) : List Char :=
  match line with
  | [] => []
  | ';' :: _ => []
  | '-' :: '>' :: _ => []
  | c :: rest => c :: stripComment rest

/-- Without spaces at either end. -/
def trim (s : List Char) : List Char := ((s.dropWhile (· == ' ')).reverse.dropWhile (· == ' ')).reverse

/-- The parts between commas. -/
def splitCommas (s : List Char) : List (List Char) :=
  match s with
  | [] => [[]]
  | c :: rest =>
    match splitCommas rest with
    | [] => [[c]]
    | part :: parts => if c == ',' then [] :: part :: parts else (c :: part) :: parts

/-- The value of a digit in base 10 or 16. -/
def digitValue (base : Nat) (c : Char) : Option Nat :=
  let n := c.toNat
  let v := if 48 ≤ n ∧ n ≤ 57 then n - 48 else if 65 ≤ n ∧ n ≤ 70 then n - 55 else if 97 ≤ n ∧ n ≤ 102 then n - 87 else 16
  if v < base then some v else none

/-- One or more digits. -/
def parseDigits (base : Nat) (s : List Char) : Option Nat :=
  match s with
  | [] => none
  | _ :: _ => s.foldlM (fun acc c => (digitValue base c).map (fun d => acc * base + d)) 0

/-- R56: `W` is decimal 1..64. -/
def parseWidth (s : List Char) : Option Nat :=
  match parseDigits 10 s with
  | some w => if WidthOk w then some w else none
  | none => none

/-- R56: `data` is a decimal integer, optionally negative, or `0x` hexadecimal. -/
def parseInteger (s : List Char) : Option Int :=
  match s with
  | '-' :: digits => (parseDigits 10 digits).map (fun n => -(n : Int))
  | '0' :: 'x' :: digits => (parseDigits 16 digits).map (fun n => (n : Int))
  | digits => (parseDigits 10 digits).map (fun n => (n : Int))

/-- R56: a negative `data` assembles to its 64-bit two's-complement form. An integer that 64 bits cannot hold either way is refused
(log entry 9). -/
def parseData (s : List Char) : Option Word :=
  match parseInteger s with
  | some v => if -((2 ^ 63 : Nat) : Int) ≤ v ∧ v < ((2 ^ 64 : Nat) : Int) then some (BitVec.ofInt 64 v) else none
  | none => none

/-- The mnemonics of R53; `.N` marks the not appending form of class WE (R56). -/
def mnemonicOf (word : List Char) : Option (Op × Bool) :=
  [("NOP", Op.nop, false), ("RD_STATUS", .rdStatus, false), ("CLR_FLAGS", .clrFlags, false), ("RD_PLEN", .rdPlen, false),
   ("ENC_U", .encU, false), ("ENC_S", .encS, false), ("ENC_SM", .encSM, false),
   ("ENC_U.N", .encU, true), ("ENC_S.N", .encS, true), ("ENC_SM.N", .encSM, true),
   ("DEC_U", .decU, false), ("DEC_S", .decS, false), ("DEC_SM", .decSM, false),
   ("CRC_INIT", .crcInit, false), ("CRC_BYTE", .crcByte, false), ("CRC_RD", .crcRd, false),
   ("PAY_CLR", .payClr, false), ("BUILD_FRAME", .buildFrame, false),
   ("CHK_START", .chkStart, false), ("CHK_BYTE", .chkByte, false), ("CHK_RESULT", .chkResult, false)].findSome?
    (fun row => if row.1.toList = word then some row.2 else none)

/-- R56: the operands each class takes: none, `data`, or `W, data`. -/
def assembleArgs (op : Op) (na : Bool) (args : List (List Char)) : Option Instr :=
  match op.formatClass, args with
  | .z, [] => some (assembleOp op na 1 0#64)
  | .d, [d] => (parseData d).map (fun v => assembleOp op na 1 v)
  | .we, [w, d] => (parseWidth w).bind (fun n => (parseData d).map (fun v => assembleOp op na n v))
  | .wd, [w, d] => (parseWidth w).bind (fun n => (parseData d).map (fun v => assembleOp op na n v))
  | _, _ => none

/-- One line of R56, or none where it is not of that form. -/
def assembleLine (line : List Char) : Option Instr :=
  let text := trim (stripComment line)
  let word := text.takeWhile (· != ' ')
  let rest := trim (text.dropWhile (· != ' '))
  let args := if rest = [] then [] else (splitCommas rest).map trim
  (mnemonicOf word).bind (fun m => assembleArgs m.1 m.2 args)

end Sys2Proof.Machine
end

