-- ==== Sys2Proof/Safety.lean ====
section
/-!
DEFINITION. The terms claims are stated in: the invariant of spec 10_state.md R29, the response status and the effect of an encode
written out from the spec and not from the machine's definitions, which command raises, clears or reads what, the sequence the
checker has been given, and how a list of commands is issued.
-/

namespace Sys2Proof.Safety

open Sys2Proof.Machine

/-! ## The response status -/

/-- 30_encoding.md R49 by bit weights: 1 `warn`, 2 `ovf`, 4 `err`, 8 `match`, 16 `ev_warn`, 32 `ev_ovf`, 64 `ev_err`. -/
def statByte (warn ovf err mtch evWarn evOvf evErr : Bool) : BitVec 8 :=
  BitVec.ofNat 8 (warn.toNat + 2 * ovf.toNat + 4 * err.toNat + 8 * mtch.toNat +
    16 * evWarn.toNat + 32 * evOvf.toNat + 64 * evErr.toNat)

/-- The status of a response that reports no event and leaves the flags as in `s`. -/
def plainStat (s : State) : BitVec 8 := statByte s.warn s.ovf s.err s.matchFlag false false false

/-! ## Which command does what to the flags (60_exceptions.md R118) -/

/-- The RangeWarning column of 40_bitfield.md R68 to R70: the operand is outside the range of the W-bit format. -/
def outOfRange (i : Instr) : Bool :=
  match i with
  | .encU _ w d => decide (2 ^ w ≤ d.toNat)
  | .encS _ w d => decide (d.toInt < -((2 ^ (w - 1) : Nat) : Int) ∨ ((2 ^ (w - 1) : Nat) : Int) - 1 < d.toInt)
  | .encSM _ w d => decide (2 ^ (w - 1) ≤ d.toInt.natAbs)
  | .decU _ _ | .decS _ _ | .decSM _ _ => false
  | .nop | .rdStatus | .clrFlags _ | .rdPlen => false
  | .crcInit | .crcByte _ | .crcRd => false
  | .payClr | .buildFrame | .chkStart | .chkByte _ | .chkResult => false

/-- The PayloadOverflow column of R68 to R70: `na` = 0 and `plen + W > 8184`. -/
def appendRefused (i : Instr) (s : State) : Bool :=
  match i with
  | .encU na w _ | .encS na w _ | .encSM na w _ => !na && decide (8184 < s.plen.toNat + w)
  | .decU _ _ | .decS _ _ | .decSM _ _ => false
  | .nop | .rdStatus | .clrFlags _ | .rdPlen => false
  | .crcInit | .crcByte _ | .crcRd => false
  | .payClr | .buildFrame | .chkStart | .chkByte _ | .chkResult => false

/-- 43_control.md R113: does this command select flag k (0 `warn`, 1 `ovf`, 2 `err`) for clearing? -/
def clearsFlag (i : Instr) (k : Nat) : Bool :=
  match i with
  | .clrFlags d => d.getLsbD k
  | .encU _ _ _ | .encS _ _ _ | .encSM _ _ _ => false
  | .decU _ _ | .decS _ _ | .decSM _ _ => false
  | .nop | .rdStatus | .rdPlen => false
  | .crcInit | .crcByte _ | .crcRd => false
  | .payClr | .buildFrame | .chkStart | .chkByte _ | .chkResult => false

/-- The commands of the checker (42_frame.md, section 4). -/
def isChecker (i : Instr) : Bool :=
  match i with
  | .chkStart | .chkByte _ | .chkResult => true
  | .encU _ _ _ | .encS _ _ _ | .encSM _ _ _ => false
  | .decU _ _ | .decS _ _ | .decSM _ _ => false
  | .nop | .rdStatus | .clrFlags _ | .rdPlen => false
  | .crcInit | .crcByte _ | .crcRd => false
  | .payClr | .buildFrame => false

/-- The reading commands of 20_memory.md R39: `NOP`, `RD_STATUS`, `RD_PLEN`, `CRC_RD`, `DEC_*`, and `ENC_*` with `na` = 1 in range. -/
def isReading (i : Instr) : Bool :=
  match i with
  | .nop | .rdStatus | .rdPlen | .crcRd => true
  | .decU _ _ | .decS _ _ | .decSM _ _ => true
  | .encU na _ _ | .encS na _ _ | .encSM na _ _ => na && !outOfRange i
  | .clrFlags _ | .crcInit | .crcByte _ => false
  | .payClr | .buildFrame | .chkStart | .chkByte _ | .chkResult => false

/-! ## The effect of an encode, from 40_bitfield.md R67 and 20_memory.md R32 -/

/-- The state after `ENC_k W, data` whose field, zero-extended, is `f` and whose operand was in range when `inr`. -/
def afterEncode (f : Word) (w : Nat) (inr na : Bool) (s : State) : State :=
  let warn := s.warn || !inr
  if na then
    { s with warn := warn, resp := some ⟨statByte warn s.ovf s.err s.matchFlag (!inr) false false, f⟩ }
  else if s.plen.toNat + w ≤ 8184 then
    { s with
      warn := warn
      pbuf := s.pbuf ++ (List.range w).map (fun i => f.getLsbD (w - 1 - i))
      plen := s.plen + BitVec.ofNat 14 w
      resp := some ⟨statByte warn s.ovf s.err s.matchFlag (!inr) false false, f⟩ }
  else
    { s with
      warn := warn
      ovf := true
      resp := some ⟨statByte warn true s.err s.matchFlag (!inr) true false, f⟩ }

/-- The bits of one field of `FRAME` (30_encoding.md R58): the field of R61, R62 or R63, first wire bit first. -/
def fieldBits (f : FieldSpec) : List Bool :=
  match f.kind with
  | .u => str (encU f.value.toNat f.width).f
  | .s => str (encS f.value.toInt f.width).f
  | .sm => str (encSM f.value.toInt f.width).f

/-! ## The invariant (10_state.md R29) -/

/-- A whole frame as it stands in `out`: the bytes of `build_frame` of some legal payload, with the one `last` beat at its end. -/
def IsFrame (fr : List Beat) : Prop :=
  (∃ payload : List Bool, payload.length ≤ 8184 ∧ fr.map Beat.byte = buildFrame payload) ∧
  ∃ front b, fr = front ++ [⟨b, true⟩] ∧ ∀ x ∈ front, x.last = false

/-- R29: the payload memory is in its canonical form, `rcnt` is at most 3, `STATUS[7:4]` is 0, and `out` is a concatenation of whole
frames. -/
def Inv (s : State) : Prop :=
  Memory.wf s.pbuf s.plen = true ∧ s.rcnt.toNat ≤ 3 ∧ (statusReg s).extractLsb' 4 4 = 0#4 ∧
  ∃ frames : List (List Beat), s.out = frames.flatten ∧ ∀ fr ∈ frames, IsFrame fr

/-! ## What the checker has been given (10_state.md R25 to R27) -/

/-- The checker's registers after `CHK_START` and the bytes `bs`: all but the last three are in `rcrc`, the last three (fewer, if
fewer were given) stand right-aligned in `hold`, and `rcnt` counts them. -/
def CheckerHolds (bs : List Byte) (s : State) : Prop :=
  s.rcnt.toNat = min bs.length 3 ∧
  s.rcrc = crc24q (bs.take (bs.length - 3)) ∧
  s.hold = (bs.drop (bs.length - 3)).foldl (fun (h : BitVec 24) (b : Byte) => h <<< 8 ||| b.setWidth 24) 0#24

/-! ## Issuing commands (00_scope.md R6, R7) -/

/-- The host issues these commands, in order, before whatever it was going to do next. -/
def issue (is : List Instr) (s : State) : State :=
  { s with pending := is.map (fun i => .command (encode i)) ++ s.pending }

/-- Two byte sequences of one length that differ in exactly one bit. -/
def DifferInOneBit (a b : List Byte) : Prop :=
  a.length = b.length ∧ ∃! k : Nat, (bitsOf a)[k]? ≠ (bitsOf b)[k]?

end Sys2Proof.Safety
end

