-- ==== Sys2Proof/Certificates/Slice0/Obligations.lean ====
section
/-!
DEFINITION. The statements for the provers, from the spec's numbered rules. A docstring names the rule it formalises, and says so
where the spec marks the rule as its own inference ([derived]) or the clause is the model's choice.
-/

open Sys2Proof Sys2Proof.Machine Sys2Proof.Safety

/-! ## Encoding -/

/-- 30_encoding.md R47, R48, R50, R51: no bit of an encoding is dropped, for every command at every width, flag and operand. -/
def Obligations.EncodedCommandDecodesToItself : Prop :=
  ∀ i : Instr, wellFormed i = true → decode (encode i) = .ok i

/-- R50, R51: what the decoder answers is well formed, assembles back to the word it was read from, and carries the operand of the
port; no bit of `data` takes part in decoding, so another operand gives the same command or the same reason for refusing. -/
def Obligations.DecodedCommandEncodesToItsWord : Prop :=
  (∀ (c : Command) (i : Instr), decode c = .ok i →
    wellFormed i = true ∧ (encode i).cmd = c.cmd ∧ withData i c.data = i) ∧
  (∀ (w : CmdWord) (d d' : Word),
    (∀ i, decode ⟨w, d⟩ = .ok i → decode ⟨w, d'⟩ = .ok (withData i d')) ∧
    (∀ e, decode ⟨w, d⟩ = .error e → decode ⟨w, d'⟩ = .error e))

/-- R53: a word is a command exactly when it selects a row of the match and mask table, and then the command is that row's; no word
selects two rows; the eighteen rows as the rule's table has them, and the rule's example words. -/
def Obligations.LegalWordsAreTheTableRows : Prop :=
  (∀ (c : Command) (i : Instr), decode c = .ok i →
    ∃ r ∈ opcodeRows, r.op = opOf i ∧ c.cmd &&& r.mask = r.pattern) ∧
  (∀ (c : Command) (r : OpcodeRow), r ∈ opcodeRows → c.cmd &&& r.mask = r.pattern →
    ∃ i, decode c = .ok i ∧ opOf i = r.op) ∧
  (∀ (w : CmdWord) (r r' : OpcodeRow), r ∈ opcodeRows → r' ∈ opcodeRows →
    w &&& r.mask = r.pattern → w &&& r'.mask = r'.pattern → r = r') ∧
  (opcodeRows.map (fun r => (r.op, r.pattern.toNat, r.mask.toNat)) =
    [(.nop, 0x0000, 0xFFFF), (.rdStatus, 0x0100, 0xFFFF), (.clrFlags, 0x0200, 0xFFFF), (.rdPlen, 0x0300, 0xFFFF),
     (.encU, 0x1000, 0xFF40), (.encS, 0x1100, 0xFF40), (.encSM, 0x1200, 0xFF40),
     (.decU, 0x1800, 0xFFC0), (.decS, 0x1900, 0xFFC0), (.decSM, 0x1A00, 0xFFC0),
     (.crcInit, 0x2000, 0xFFFF), (.crcByte, 0x2100, 0xFFFF), (.crcRd, 0x2200, 0xFFFF),
     (.payClr, 0x3000, 0xFFFF), (.buildFrame, 0x3100, 0xFFFF),
     (.chkStart, 0x3800, 0xFFFF), (.chkByte, 0x3900, 0xFFFF), (.chkResult, 0x3A00, 0xFFFF)]) ∧
  (∀ d : Word, decode ⟨0x100B, d⟩ = .ok (.encU false 12 d) ∧ decode ⟨0x1125, d⟩ = .ok (.encS false 38 d) ∧
    decode ⟨0x1297, d⟩ = .ok (.encSM true 24 d) ∧ decode ⟨0x1925, d⟩ = .ok (.decS 38 d) ∧
    decode ⟨0x103F, d⟩ = .ok (.encU false 64 d))

/-- R54: which words are illegal, in both of the rule's forms; those are the words the decoder refuses; and all that an illegal command
does, whatever made it illegal. -/
def Obligations.IllegalCommandSetsErrOnly : Prop :=
  (∀ w : CmdWord, (∀ r ∈ opcodeRows, w &&& r.mask ≠ r.pattern) ↔
    (opField w ∉ [0x00#8, 0x01, 0x02, 0x03, 0x10, 0x11, 0x12, 0x18, 0x19, 0x1A,
        0x20, 0x21, 0x22, 0x30, 0x31, 0x38, 0x39, 0x3A] ∨
      w.getLsbD 6 = true ∨
      (w.getLsbD 7 = true ∧ opField w ∉ [0x10#8, 0x11, 0x12]) ∨
      (w.extractLsb' 0 6 ≠ 0#6 ∧ opField w ∉ [0x10#8, 0x11, 0x12, 0x18, 0x19, 0x1A]))) ∧
  (∀ c : Command, (∀ r ∈ opcodeRows, c.cmd &&& r.mask ≠ r.pattern) ↔ ∃ e, decode c = .error e) ∧
  (∀ (e : DecodeError) (s : State), illegalCommand e s = .next { s with
    err := true
    resp := some ⟨statByte s.warn s.ovf true s.matchFlag false false true, 0#64⟩ })

/-- Words written out bit by bit from R47 and R53, one or more of each family, and illegal words of V11. A sanity statement. -/
def Obligations.SpecWordsDecode : Prop :=
  decode ⟨0b0000_0001_0_0_000000#16, 0x1234⟩ = .ok .rdStatus ∧
  decode ⟨0b0000_0010_0_0_000000#16, 7⟩ = .ok (.clrFlags 7) ∧
  decode ⟨0b0001_0000_1_0_000000#16, 1⟩ = .ok (.encU true 1 1) ∧
  decode ⟨0b0001_1010_0_0_000100#16, 0x15⟩ = .ok (.decSM 5 0x15) ∧
  decode ⟨0b0010_0001_0_0_000000#16, 0xD3⟩ = .ok (.crcByte 0xD3) ∧
  decode ⟨0b0011_0001_0_0_000000#16, 0x1234⟩ = .ok .buildFrame ∧
  decode ⟨0b0011_1010_0_0_000000#16, 0⟩ = .ok .chkResult ∧
  decode ⟨0x0400, 0x1234⟩ = .error .unassignedOpcode ∧
  decode ⟨0x1040, 0x1234⟩ = .error .reservedBitSet ∧
  decode ⟨0x1880, 0x1234⟩ = .error .naNotZero ∧
  decode ⟨0x3101, 0x1234⟩ = .error .widthNotZero

/-! ## The step, reset, completion -/

/-- 00_scope.md R6, 30_encoding.md R50, R54: the step takes the next action off the port and is the execution of the command its word
decodes to, of the illegal command where it decodes to none, or the reset. That the host's actions stand in the state is the model's
choice (log entry 1). -/
def Obligations.StepRunsDecodedCommand : Prop :=
  (∀ (s : State) (c : Command) (rest : List HostAction) (i : Instr),
    s.pending = .command c :: rest → decode c = .ok i → step s = exec i { s with pending := rest }) ∧
  (∀ (s : State) (c : Command) (rest : List HostAction) (e : DecodeError),
    s.pending = .command c :: rest → decode c = .error e → step s = illegalCommand e { s with pending := rest }) ∧
  (∀ (s : State) (rest : List HostAction),
    s.pending = .reset :: rest → step s = .next (assertReset { s with pending := rest }))

/-- 60_exceptions.md R124 ("idle between commands"): with no action of the host nothing changes. That the step then answers the
state itself is the model's choice (log entry 3). -/
def Obligations.IdleBlockKeepsItsState : Prop :=
  ∀ s : State, s.pending = [] → step s = .next s

/-- 70_reset_and_hazards.md R126: the reset input between commands, from every state, and the command sequence that reaches the same
state, `out` apart. That the host's actions stand in the state is the model's choice (log entry 1); what stands on the response port
is not stated (log entry 2). -/
def Obligations.ResetRestoresEveryElementButOut : Prop :=
  (∀ (s : State) (rest : List HostAction), s.pending = .reset :: rest →
    ∃ t, step s = .next t ∧ t.crc = 0#24 ∧ t.pbuf = [] ∧ t.plen = 0#14 ∧ t.out = s.out ∧
      t.warn = false ∧ t.ovf = false ∧ t.err = false ∧ t.matchFlag = false ∧
      t.rcrc = 0#24 ∧ t.hold = 0#24 ∧ t.rcnt = 0#2 ∧ t.pending = rest) ∧
  (∀ s : State, ∃ t, core.run 4 (issue [.clrFlags 7, .payClr, .crcInit, .chkStart] s) = .next t ∧
    t.crc = 0#24 ∧ t.pbuf = [] ∧ t.plen = 0#14 ∧ t.out = s.out ∧
    t.warn = false ∧ t.ovf = false ∧ t.err = false ∧ t.matchFlag = false ∧
    t.rcrc = 0#24 ∧ t.hold = 0#24 ∧ t.rcnt = 0#2 ∧ t.pending = s.pending)

/-- 70_reset_and_hazards.md R127: the reset state, element by element. -/
def Obligations.ResetStateValues : Prop :=
  State.reset.crc = 0x000000#24 ∧ State.reset.pbuf = [] ∧ State.reset.plen = 0#14 ∧
  State.reset.warn = false ∧ State.reset.ovf = false ∧ State.reset.err = false ∧ State.reset.matchFlag = false ∧
  statusReg State.reset = 0x00#8 ∧ State.reset.rcrc = 0x000000#24 ∧ State.reset.hold = 0x000000#24 ∧
  State.reset.rcnt = 0#2 ∧ State.reset.out = []

/-- 60_exceptions.md R117: every step, in every state, completes; and a command, legal or illegal, leaves a response. -/
def Obligations.EveryCommandCompletesWithAResponse : Prop :=
  (∀ s : State, ∃ t, step s = .next t ∧
    ∀ (c : Command) (rest : List HostAction), s.pending = .command c :: rest → ∃ r, t.resp = some r) ∧
  (∀ (i : Instr) (s : State), ∃ t r, exec i s = .next t ∧ t.resp = some r)

/-! ## Status, responses, flags -/

/-- 30_encoding.md R49, with the bits of `STATUS` of 10_state.md R24: every bit of `stat`, for every command and for an illegal one: bits
3:0 are `STATUS[3:0]` after the command, bit 4 reports an operand out of range, bit 5 a refused append, bit 6 an illegal command,
bit 7 is 0; an illegal command returns the value 0. -/
def Obligations.ResponseStatusReportsThisCommand : Prop :=
  (∀ (i : Instr) (s t : State), exec i s = .next t →
    ∃ v, t.resp = some ⟨statByte t.warn t.ovf t.err t.matchFlag (outOfRange i) (appendRefused i s) false, v⟩) ∧
  (∀ (e : DecodeError) (s t : State), illegalCommand e s = .next t →
    t.resp = some ⟨statByte t.warn t.ovf t.err t.matchFlag false false true, 0#64⟩) ∧
  (∀ w o e m ew eo ee : Bool,
    (statByte w o e m ew eo ee).getLsbD 0 = w ∧ (statByte w o e m ew eo ee).getLsbD 1 = o ∧
    (statByte w o e m ew eo ee).getLsbD 2 = e ∧ (statByte w o e m ew eo ee).getLsbD 3 = m ∧
    (statByte w o e m ew eo ee).getLsbD 4 = ew ∧ (statByte w o e m ew eo ee).getLsbD 5 = eo ∧
    (statByte w o e m ew eo ee).getLsbD 6 = ee ∧ (statByte w o e m ew eo ee).getLsbD 7 = false) ∧
  (∀ s : State, (statusReg s).getLsbD 0 = s.warn ∧ (statusReg s).getLsbD 1 = s.ovf ∧ (statusReg s).getLsbD 2 = s.err ∧
    (statusReg s).getLsbD 3 = s.matchFlag ∧ (statusReg s).extractLsb' 4 4 = 0#4)

/-- 10_state.md R20, R21, R22: what sets and what clears the sticky flags, for every command, for an illegal one, which changes nothing
else, and for the reset input; their reset values. -/
def Obligations.StickyFlagsAreSetAndClearedAsStated : Prop :=
  (∀ (i : Instr) (s t : State), exec i s = .next t →
    t.warn = ((s.warn && !clearsFlag i 0) || outOfRange i) ∧
    t.ovf = ((s.ovf && !clearsFlag i 1) || appendRefused i s) ∧
    t.err = (s.err && !clearsFlag i 2) ∧
    (appendRefused i s = true → t.pbuf = s.pbuf ∧ t.plen = s.plen)) ∧
  (∀ (e : DecodeError) (s t : State), illegalCommand e s = .next t → t = { s with err := true, resp := t.resp }) ∧
  (∀ s : State, (assertReset s).warn = false ∧ (assertReset s).ovf = false ∧ (assertReset s).err = false) ∧
  State.reset.warn = false ∧ State.reset.ovf = false ∧ State.reset.err = false

/-- 60_exceptions.md R121: no command but `RD_STATUS` and `CLR_FLAGS` is affected by the value of a flag: with any other flags it
leaves the same registers, buffer and stream and answers the same value. -/
def Obligations.FlagsDoNotSteerCommands : Prop :=
  ∀ (i : Instr) (s t : State) (w o e m : Bool), exec i s = .next t → i ≠ .rdStatus → (∀ d, i ≠ .clrFlags d) →
    ∃ u, exec i { s with warn := w, ovf := o, err := e, matchFlag := m } = .next u ∧
      u.crc = t.crc ∧ u.pbuf = t.pbuf ∧ u.plen = t.plen ∧ u.out = t.out ∧
      u.rcrc = t.rcrc ∧ u.hold = t.hold ∧ u.rcnt = t.rcnt ∧ u.pending = t.pending ∧
      u.resp.map Response.value = t.resp.map Response.value

/-- 43_control.md R111: the word 0x0000 is `NOP`; it answers 0, and the response's `stat` still carries the current `STATUS`. -/
def Obligations.NopResult : Prop :=
  (∀ d : Word, decode ⟨0x0000, d⟩ = .ok .nop) ∧
  ∀ s : State, exec .nop s = .next { s with resp := some ⟨plainStat s, 0#64⟩ }

/-- 43_control.md R112: the word 0x0100; the value is `warn`, `ovf`, `err`, `match` in bits 0 to 3, the rest 0. -/
def Obligations.RdStatusResult : Prop :=
  (∀ d : Word, decode ⟨0x0100, d⟩ = .ok .rdStatus) ∧
  ∀ s : State, exec .rdStatus s = .next { s with
    resp := some ⟨plainStat s,
      BitVec.ofNat 64 (s.warn.toNat + 2 * s.ovf.toNat + 4 * s.err.toNat + 8 * s.matchFlag.toNat)⟩ }

/-- 43_control.md R113: the word 0x0200; write one to clear; `match` stays; the value is `STATUS` after the clearing. -/
def Obligations.ClrFlagsResult : Prop :=
  (∀ d : Word, decode ⟨0x0200, d⟩ = .ok (.clrFlags d)) ∧
  ∀ (d : Word) (s : State),
    let w := if d.getLsbD 0 then false else s.warn
    let o := if d.getLsbD 1 then false else s.ovf
    let e := if d.getLsbD 2 then false else s.err
    exec (.clrFlags d) s = .next { s with
      warn := w
      ovf := o
      err := e
      resp := some ⟨statByte w o e s.matchFlag false false false,
        BitVec.ofNat 64 (w.toNat + 2 * o.toNat + 4 * e.toNat + 8 * s.matchFlag.toNat)⟩ }

/-- 43_control.md R114: the word 0x0300; the value is `plen`. -/
def Obligations.RdPlenResult : Prop :=
  (∀ d : Word, decode ⟨0x0300, d⟩ = .ok .rdPlen) ∧
  ∀ s : State, exec .rdPlen s = .next { s with resp := some ⟨plainStat s, BitVec.ofNat 64 s.plen.toNat⟩ }

/-! ## The payload buffer and the encode commands -/

/-- 20_memory.md R32: `PbufAppend`, all or nothing; bit `f[W-1-i]` lands at position `plen_before + i`, and the bits before stay. -/
def Obligations.PbufAppendAllOrNothing : Prop :=
  ∀ (w : Nat) (f : BitVec w) (s : State), WidthOk w → Memory.wf s.pbuf s.plen = true →
    (s.plen.toNat + w ≤ 8184 →
      ∃ t, pbufAppend f s = ([], t) ∧ t = { s with pbuf := t.pbuf, plen := t.plen } ∧
        t.plen.toNat = s.plen.toNat + w ∧ t.pbuf.length = s.plen.toNat + w ∧
        (∀ i < w, t.pbuf[s.plen.toNat + i]? = some (f.getLsbD (w - 1 - i))) ∧
        (∀ j < s.plen.toNat, t.pbuf[j]? = s.pbuf[j]?)) ∧
    (8184 < s.plen.toNat + w → pbufAppend f s = ([.payloadOverflow], { s with ovf := true }))

/-- 40_bitfield.md R68 with the common behaviour of R67: the words `0x1000 | na<<7 | wm1` are `ENC_U`; the field is `data[W-1:0]`, in
range when `data[63:W]` = 0, which is the same as `x < 2^W`; appended or not, refused or not, in every combination. -/
def Obligations.EncUResult : Prop :=
  ∀ (na : Bool) (w : Nat) (d : Word), WidthOk w →
    decode ⟨0x1000#16 ||| (if na then 1#16 <<< 7 else 0#16) ||| BitVec.ofNat 16 (w - 1), d⟩ = .ok (.encU na w d) ∧
    ((d >>> w == 0#64) = !decide (2 ^ w ≤ d.toNat)) ∧
    ∀ s : State, exec (.encU na w d) s = .next (afterEncode ((d.setWidth w).setWidth 64) w (d >>> w == 0#64) na s)

/-- 40_bitfield.md R69 with the common behaviour of R67: the words `0x1100 | na<<7 | wm1` are `ENC_S`; the field is `data[W-1:0]`, in
range when the bits `data[63:W-1]` are all equal, which is the same as `-2^(W-1) <= x <= 2^(W-1)-1`. -/
def Obligations.EncSResult : Prop :=
  ∀ (na : Bool) (w : Nat) (d : Word), WidthOk w →
    let inr := (List.range 64).all (fun i => i < w - 1 || d.getLsbD i == d.getLsbD 63)
    decode ⟨0x1100#16 ||| (if na then 1#16 <<< 7 else 0#16) ||| BitVec.ofNat 16 (w - 1), d⟩ = .ok (.encS na w d) ∧
    (inr = !decide (d.toInt < -((2 ^ (w - 1) : Nat) : Int) ∨ ((2 ^ (w - 1) : Nat) : Int) - 1 < d.toInt)) ∧
    ∀ s : State, exec (.encS na w d) s = .next (afterEncode ((d.setWidth w).setWidth 64) w inr na s)

/-- 40_bitfield.md R70 with the common behaviour of R67: the words `0x1200 | na<<7 | wm1` are `ENC_SM`; `s = data[63]`, `m` is `data`
or its 64-bit negation, the field is the sign above `m[W-2:0]`, in range when `m[63:W-1]` = 0, which is the same as
`|x| < 2^(W-1)`. -/
def Obligations.EncSMResult : Prop :=
  ∀ (na : Bool) (w : Nat) (d : Word), WidthOk w →
    let m : Word := if d.getLsbD 63 then ~~~d + 1#64 else d
    let f : Word := (m.setWidth (w - 1)).setWidth 64 ||| (if d.getLsbD 63 then 1#64 <<< (w - 1) else 0#64)
    decode ⟨0x1200#16 ||| (if na then 1#16 <<< 7 else 0#16) ||| BitVec.ofNat 16 (w - 1), d⟩ = .ok (.encSM na w d) ∧
    ((m >>> (w - 1) == 0#64) = !decide (2 ^ (w - 1) ≤ d.toInt.natAbs)) ∧
    ∀ s : State, exec (.encSM na w d) s = .next (afterEncode f w (m >>> (w - 1) == 0#64) na s)

/-- 10_state.md R15: `plen` never moves backward except to 0 by `PAY_CLR` or reset, and moves forward only by an appending encode, by
its width; it does not wrap. -/
def Obligations.PlenMovesByWholeFields : Prop :=
  ∀ s t : State, step s = .next t →
    t.plen = s.plen ∨
    (t.plen = 0#14 ∧ ∃ rest, s.pending = .reset :: rest ∨ ∃ c, s.pending = .command c :: rest ∧ decode c = .ok .payClr) ∨
    ∃ c rest k w d, s.pending = .command c :: rest ∧ decode c = .ok (encodeInstr k false w d) ∧
      t.plen.toNat = s.plen.toNat + w

/-! ## The decode commands and the formats -/

/-- 40_bitfield.md R71: the words `0x1800 | wm1` are `DEC_U`, and with `na` = 1 illegal; the value is `uint(data[W-1:0])`. -/
def Obligations.DecUResult : Prop :=
  ∀ (w : Nat) (d : Word), WidthOk w →
    decode ⟨0x1800#16 ||| BitVec.ofNat 16 (w - 1), d⟩ = .ok (.decU w d) ∧
    decode ⟨0x1880#16 ||| BitVec.ofNat 16 (w - 1), d⟩ = .error .naNotZero ∧
    ∀ s : State, exec (.decU w d) s = .next { s with resp := some ⟨plainStat s, BitVec.ofNat 64 (d.toNat % 2 ^ w)⟩ }

/-- 40_bitfield.md R72: the words `0x1900 | wm1` are `DEC_S`, and with `na` = 1 illegal; the value copies `data[W-1]` into bits 63..W
above the field, and as an integer it is `dec_s` of the field. -/
def Obligations.DecSResult : Prop :=
  ∀ (w : Nat) (d : Word), WidthOk w →
    decode ⟨0x1900#16 ||| BitVec.ofNat 16 (w - 1), d⟩ = .ok (.decS w d) ∧
    decode ⟨0x1980#16 ||| BitVec.ofNat 16 (w - 1), d⟩ = .error .naNotZero ∧
    ∃ v : Word, (∀ s : State, exec (.decS w d) s = .next { s with resp := some ⟨plainStat s, v⟩ }) ∧
      (∀ i < 64, v.getLsbD i = d.getLsbD (min i (w - 1))) ∧ v.toInt = decS (d.setWidth w)

/-- 40_bitfield.md R73: the words `0x1A00 | wm1` are `DEC_SM`, and with `na` = 1 illegal; as an integer the value is minus or plus the
magnitude `data[W-2:0]` as the sign `data[W-1]` says, which is `dec_sm` of the field. -/
def Obligations.DecSMResult : Prop :=
  ∀ (w : Nat) (d : Word), WidthOk w →
    decode ⟨0x1A00#16 ||| BitVec.ofNat 16 (w - 1), d⟩ = .ok (.decSM w d) ∧
    decode ⟨0x1A80#16 ||| BitVec.ofNat 16 (w - 1), d⟩ = .error .naNotZero ∧
    ∃ v : Word, (∀ s : State, exec (.decSM w d) s = .next { s with resp := some ⟨plainStat s, v⟩ }) ∧
      v.toInt = (if d.getLsbD (w - 1) then -((d.toNat % 2 ^ (w - 1) : Nat) : Int) else ((d.toNat % 2 ^ (w - 1) : Nat) : Int)) ∧
      v.toInt = decSM (d.setWidth w)

/-- 40_bitfield.md R75 (the spec's inference from R61 to R66): the round trips of the three formats, both ways, and in command
terms. -/
def Obligations.FieldRoundTrips : Prop :=
  (∀ w, WidthOk w →
    (∀ x : Nat, x ≤ 2 ^ w - 1 → decU (encU x w).f = x) ∧
    (∀ x : Int, -((2 ^ (w - 1) : Nat) : Int) ≤ x → x ≤ ((2 ^ (w - 1) : Nat) : Int) - 1 → decS (encS x w).f = x) ∧
    (∀ x : Int, x.natAbs ≤ 2 ^ (w - 1) - 1 → decSM (encSM x w).f = x) ∧
    (∀ f : BitVec w, encU (decU f) w = ⟨f, true⟩) ∧
    (∀ f : BitVec w, encS (decS f) w = ⟨f, true⟩) ∧
    (∀ f : BitVec w, f ≠ BitVec.ofNat w (2 ^ (w - 1)) → encSM (decSM f) w = ⟨f, true⟩) ∧
    encSM (decSM (BitVec.ofNat w (2 ^ (w - 1)))) w = ⟨0#w, true⟩) ∧
  (∀ (k : FieldKind) (na : Bool) (w : Nat) (d : Word) (s s' t : State) (r : Response), WidthOk w →
    exec (encodeInstr k na w d) s = .next t → t.resp = some r → r.stat.getLsbD 4 = false →
    ∃ u, exec (decodeInstr k w r.value) s' = .next u ∧ u.resp.map Response.value = some d)

/-- 40_bitfield.md R76 (the spec's inference from R61 to R63): the fields of an operand out of range, exactly, and the warning. That an
encoder wraps and does not clamp is the spec's decision D4 (log entry 7). -/
def Obligations.OutOfRangeFieldsWrapAndWarn : Prop :=
  (∀ w, WidthOk w →
    (∀ x : Nat, 2 ^ w ≤ x → (encU x w).inr = false ∧ decU (encU x w).f = x % 2 ^ w) ∧
    (∀ x : Int, (x < -((2 ^ (w - 1) : Nat) : Int) ∨ ((2 ^ (w - 1) : Nat) : Int) ≤ x) →
      (encS x w).inr = false ∧
      -((2 ^ (w - 1) : Nat) : Int) ≤ decS (encS x w).f ∧ decS (encS x w).f < ((2 ^ (w - 1) : Nat) : Int) ∧
      ((2 ^ w : Nat) : Int) ∣ decS (encS x w).f - x) ∧
    (∀ x : Int, 2 ^ (w - 1) ≤ x.natAbs →
      (encSM x w).inr = false ∧ decSM (encSM x w).f = x.sign * ((x.natAbs % 2 ^ (w - 1) : Nat) : Int))) ∧
  (∀ (k : FieldKind) (na : Bool) (w : Nat) (d : Word) (s : State), WidthOk w → outOfRange (encodeInstr k na w d) = true →
    ∃ t, exec (encodeInstr k na w d) s = .next t ∧ t.warn = true)

/-- 30_encoding.md R52: operand bits a command does not use may hold anything. -/
def Obligations.UnusedOperandBitsAreIgnored : Prop :=
  ∀ (d d' : Word) (s : State),
    (∀ w, WidthOk w → (∀ i < w, d.getLsbD i = d'.getLsbD i) →
      exec (.decU w d) s = exec (.decU w d') s ∧ exec (.decS w d) s = exec (.decS w d') s ∧
      exec (.decSM w d) s = exec (.decSM w d') s) ∧
    ((∀ i < 8, d.getLsbD i = d'.getLsbD i) →
      exec (.crcByte d) s = exec (.crcByte d') s ∧ exec (.chkByte d) s = exec (.chkByte d') s) ∧
    ((∀ i < 3, d.getLsbD i = d'.getLsbD i) → exec (.clrFlags d) s = exec (.clrFlags d') s)

/-! ## The CRC-24Q generator -/

/-- 41_crc24q.md R87: the word 0x2000; `crc` becomes 0. -/
def Obligations.CrcInitResult : Prop :=
  (∀ d : Word, decode ⟨0x2000, d⟩ = .ok .crcInit) ∧
  ∀ s : State, exec .crcInit s = .next { s with crc := 0x000000#24, resp := some ⟨plainStat s, 0#64⟩ }

/-- 41_crc24q.md R88: the word 0x2100; with the rule's example: from 0, the bytes D3, 00, 13. -/
def Obligations.CrcByteResult : Prop :=
  (∀ d : Word, decode ⟨0x2100, d⟩ = .ok (.crcByte d)) ∧
  (∀ (d : Word) (s : State), exec (.crcByte d) s = .next { s with
    crc := crcByte s.crc (d.setWidth 8)
    resp := some ⟨plainStat s, BitVec.ofNat 64 (crcByte s.crc (d.setWidth 8)).toNat⟩ }) ∧
  ((List.range 9).map (fun n => ((str 0xD3#8).take n).foldl crcBit 0#24)) =
    [0x000000#24, 0x864CFB, 0x0C99F6, 0x1933EC, 0xB42B23, 0xEE1ABD, 0x5A7981, 0x32BFF9, 0xE33309] ∧
  crcByte 0#24 0xD3#8 = 0xE33309#24 ∧ crcByte 0xE33309#24 0x00#8 = 0x19A569#24 ∧ crcByte 0x19A569#24 0x13#8 = 0x8E3D34#24

/-- 41_crc24q.md R89: the word 0x2200; with the rule's example, the nine bytes of "123456789". -/
def Obligations.CrcRdResult : Prop :=
  (∀ d : Word, decode ⟨0x2200, d⟩ = .ok .crcRd) ∧
  (∀ s : State, exec .crcRd s = .next { s with resp := some ⟨plainStat s, BitVec.ofNat 64 s.crc.toNat⟩ }) ∧
  crc24q [0x31, 0x32, 0x33, 0x34, 0x35, 0x36, 0x37, 0x38, 0x39] = 0xCDE703#24

/-- 41_crc24q.md R82, R85, R86 (the spec's inferences): the equal forms of the CRC: eight shifts after the byte is XORed into the top of
the register; the table form, with the four table entries the rule names; `crc_bit` folded over a bit string in wire order. -/
def Obligations.CrcEqualForms : Prop :=
  (∀ (c : Crc) (b : Byte),
    crcByte c b = (fun r : Crc => if r.getLsbD 23 then r <<< 1 ^^^ 0x864CFB#24 else r <<< 1)^[8] (c ^^^ b.setWidth 24 <<< 16)) ∧
  (∀ (c : Crc) (b : Byte), crcByte c b = c <<< 8 ^^^ crcByte 0#24 (c.extractLsb' 16 8 ^^^ b)) ∧
  crcByte 0#24 0#8 = 0x000000#24 ∧ crcByte 0#24 1#8 = 0x864CFB#24 ∧ crcByte 0#24 2#8 = 0x8AD50D#24 ∧
  crcByte 0#24 255#8 = 0xDD8538#24 ∧
  (∀ s : List Bool, 8 ∣ s.length → crc24q (bytesOf s) = s.foldl crcBit 0#24)

/-- 41_crc24q.md R90 (the spec's inference from R81 to R83): linearity, self-check, leading zeros, continuation. -/
def Obligations.CrcLaws : Prop :=
  (∀ a b : List Byte, a.length = b.length → crc24q (List.zipWith (· ^^^ ·) a b) = crc24q a ^^^ crc24q b) ∧
  (∀ m : List Byte, crc24q (m ++ threeBytes (crc24q m)) = 0#24) ∧
  (∀ m : List Byte, crc24q (0x00#8 :: m) = crc24q m) ∧
  (∀ m n : List Byte, crc24q (m ++ n) = n.foldl crcByte (crc24q m))

/-- 41_crc24q.md R91 (the spec's inference from R81, R90): byte sequences that differ in exactly one bit have different CRCs. -/
def Obligations.CrcSeparatesSingleBitErrors : Prop :=
  ∀ a b : List Byte, DifferInOneBit a b → crc24q a ≠ crc24q b

/-- 41_crc24q.md R81, last paragraph (the spec marks it general knowledge): after all bits of a message M are fed from a zero register,
the register is the remainder (`%ₘ`, division by a monic polynomial) of M(x) * x^24 divided by g(x) over GF(2). -/
def Obligations.CrcIsThePolynomialRemainder : Prop :=
  ∀ bits : List Bool,
    let poly : List Bool → Polynomial (ZMod 2) :=
      fun s => s.foldl (fun p d => p * Polynomial.X + Polynomial.C (if d then 1 else 0)) 0
    let g : Polynomial (ZMod 2) := poly (str 0x1864CFB#25)
    poly (str (bits.foldl crcBit 0#24)) = (poly bits * Polynomial.X ^ 24) %ₘ g

/-- 41_crc24q.md R92 (the spec's inference from R81 to R83), and the two numbers of R84 and conflict C1: the first 22 bytes of the
reference frame in wire order and reversed. -/
def Obligations.CrcFixedPoints : Prop :=
  crc24q [] = 0x000000#24 ∧ crc24q [0x00] = 0x000000#24 ∧ crc24q [0x01] = 0x864CFB#24 ∧ crc24q [0x80] = 0x3347A4#24 ∧
  crc24q [0xFF] = 0xDD8538#24 ∧ crc24q [0xD3] = 0xE33309#24 ∧ crc24q [0xD3, 0x00, 0x00] = 0x47EA4B#24 ∧
  crc24q [0x31, 0x32, 0x33, 0x34, 0x35, 0x36, 0x37, 0x38, 0x39] = 0xCDE703#24 ∧
  crc24q [0xD3, 0x00, 0x13, 0x3E, 0xD7, 0xD3, 0x02, 0x02, 0x98, 0x0E, 0xDE, 0xEF, 0x34, 0xB4, 0xBD, 0x62, 0xAC, 0x09,
    0x41, 0x98, 0x6F, 0x33] = 0x360B98#24 ∧
  crc24q [0x33, 0x6F, 0x98, 0x41, 0x09, 0xAC, 0x62, 0xBD, 0xB4, 0x34, 0xEF, 0xDE, 0x0E, 0x98, 0x02, 0x02, 0xD3, 0xD7,
    0x3E, 0x13, 0x00, 0xD3] = 0x1E1F5E#24

/-- 30_encoding.md R57 (the spec's inference from R87 to R89): the commands of `CRC24Q b0 ... b(n-1)` compute `crc24q`, from every
state. That the host's commands are issued through a field of the state (`issue`) is the model's choice (log entry 1). -/
def Obligations.Crc24qCommandsComputeCrc : Prop :=
  ∀ (bytes : List Byte) (s : State), ∃ t,
    core.run (bytes.length + 2) (issue (pseudoCrc24q bytes) s) = .next t ∧ t.crc = crc24q bytes ∧
      t.resp = some ⟨plainStat s, BitVec.ofNat 64 (crc24q bytes).toNat⟩ ∧
      t = { s with crc := t.crc, resp := t.resp }

/-! ## Bit strings, frames, the packer -/

/-- 00_scope.md R9: `str` puts bit W-1 first, and byte k of a bit string has bit `8k + j` of the string as its bit `7 - j`. -/
def Obligations.WireOrderOfBitsAndBytes : Prop :=
  (∀ (w : Nat) (f : BitVec w), (str f).length = w ∧ ∀ i < w, (str f)[i]? = some (f.getLsbD (w - 1 - i))) ∧
  (∀ s : List Bool, 8 ∣ s.length → (bytesOf s).length = s.length / 8 ∧
    ∀ k j, j < 8 → 8 * k + j < s.length → ((bytesOf s)[k]?.map (fun b => b.getLsbD (7 - j))) = s[8 * k + j]?)

/-- 42_frame.md R93, R94: the frame of a legal payload, byte by byte: `D3`, `000000 ‖ L[9:8]`, `L[7:0]`, the payload with zero bits
behind it, and the CRC of everything before it, most significant byte first. -/
def Obligations.FrameLayout : Prop :=
  ∀ payload : List Bool, payload.length ≤ 8184 →
    let len := (payload.length + 7) / 8
    ∃ content : List Byte, content.length = len ∧
      (∀ k < 8 * len, (bitsOf content)[k]? = some (payload.getD k false)) ∧
      let front := [0xD3#8, BitVec.ofNat 8 (len / 256), BitVec.ofNat 8 (len % 256)] ++ content
      let c := crc24q front
      buildFrame payload = front ++
        [BitVec.ofNat 8 (c.toNat / 65536), BitVec.ofNat 8 (c.toNat / 256), BitVec.ofNat 8 c.toNat]

/-- 42_frame.md R109 (the spec's inference from R94, R99): `BUILD_FRAME` appends `ceil(plen/8) + 6` beats, 6 to 1029, of which the last
and only the last has `last` = 1. -/
def Obligations.FrameSizes : Prop :=
  ∀ s : State, Memory.wf s.pbuf s.plen = true →
    ∃ t beats, exec .buildFrame s = .next t ∧ t.out = s.out ++ beats ∧
      beats.length = (s.plen.toNat + 7) / 8 + 6 ∧ 6 ≤ beats.length ∧ beats.length ≤ 1029 ∧
      ∀ k b, beats[k]? = some b → (b.last = true ↔ k + 1 = beats.length)

/-- 42_frame.md R99: the word 0x3100; the bytes of `build_frame(pbuf)` in order, `last` on the final one; `crc` and the value are the frame's CRC, its
last three bytes; nothing else changes, the payload and the flags included, and no flag is consulted. -/
def Obligations.BuildFrameResult : Prop :=
  (∀ d : Word, decode ⟨0x3100, d⟩ = .ok .buildFrame) ∧
  ∀ s : State, ∃ (beats : List Beat) (c : Crc),
    exec .buildFrame s = .next { s with
      out := s.out ++ beats
      crc := c
      resp := some ⟨plainStat s, BitVec.ofNat 64 c.toNat⟩ } ∧
    beats.map Beat.byte = buildFrame s.pbuf ∧
    (beats.map Beat.byte).drop (beats.length - 3) =
      [BitVec.ofNat 8 (c.toNat / 65536), BitVec.ofNat 8 (c.toNat / 256), BitVec.ofNat 8 c.toNat] ∧
    ∃ front b, beats = front ++ [⟨b, true⟩] ∧ ∀ x ∈ front, x.last = false

/-- 42_frame.md R98: the word 0x3000; the buffer empty, no flag touched. -/
def Obligations.PayClrResult : Prop :=
  (∀ d : Word, decode ⟨0x3000, d⟩ = .ok .payClr) ∧
  ∀ s : State, exec .payClr s = .next { s with pbuf := [], plen := 0#14, resp := some ⟨plainStat s, 0#64⟩ }

/-- 42_frame.md R97 (a) (the spec's inference from R94, R96): a built frame passes the check. -/
def Obligations.BuiltFramePassesCheck : Prop :=
  ∀ payload : List Bool, payload.length ≤ 8184 → checkFrame (buildFrame payload) = true

/-- 42_frame.md R97 (b) (the spec's inference from R91, R94, R96): a built frame with any single bit flipped fails the check. -/
def Obligations.FlippedFrameFailsCheck : Prop :=
  ∀ (payload : List Bool) (bytes : List Byte), payload.length ≤ 8184 → DifferInOneBit (buildFrame payload) bytes →
    checkFrame bytes = false

/-- 42_frame.md R97 (c), R106 (the spec's inferences): bits 24..35 of a frame are the first 12 payload bits, so a first field
`ENC_U 12, m` stands in bytes 3 and 4. -/
def Obligations.MessageNumberInBytesThreeAndFour : Prop :=
  (∀ payload : List Bool, 12 ≤ payload.length → payload.length ≤ 8184 →
    ((bitsOf (buildFrame payload)).drop 24).take 12 = payload.take 12) ∧
  (∀ (m : BitVec 12) (rest : List Bool), rest.length + 12 ≤ 8184 →
    ∃ b3 b4 : Byte, (buildFrame (str m ++ rest))[3]? = some b3 ∧ (buildFrame (str m ++ rest))[4]? = some b4 ∧
      b3 = m.extractLsb' 4 8 ∧ b4.extractLsb' 4 4 = m.extractLsb' 0 4)

/-- 42_frame.md R107 (the spec's inference from R94; conflict C3): the empty payload. -/
def Obligations.EmptyPayloadFrame : Prop :=
  buildFrame [] = [0xD3, 0x00, 0x00, 0x47, 0xEA, 0x4B] ∧ checkFrame [0xD3, 0x00, 0x00, 0x47, 0xEA, 0x4B] = true

/-- 30_encoding.md R58, 40_bitfield.md R78 (the spec's inferences): the commands of `FRAME` put the fields one behind the other in the
buffer and emit the frame of their concatenation, from every state. That the host's commands are issued through a field of the state
(`issue`) is the model's choice (log entry 1). -/
def Obligations.FrameCommandsBuildTheFrame : Prop :=
  ∀ (fields : List FieldSpec) (s : State), (∀ f ∈ fields, WidthOk f.width) → (fields.map FieldSpec.width).sum ≤ 8184 →
    ∃ t, core.run (fields.length + 2) (issue (pseudoFrame fields) s) = .next t ∧
      t.pbuf = fields.flatMap fieldBits ∧ t.plen.toNat = (fields.map FieldSpec.width).sum ∧
      ∃ beats, t.out = s.out ++ beats ∧ beats.map Beat.byte = buildFrame (fields.flatMap fieldBits)

/-! ## The checker -/

/-- 42_frame.md R100: the word 0x3800; the checker's registers and `match` cleared. -/
def Obligations.ChkStartResult : Prop :=
  (∀ d : Word, decode ⟨0x3800, d⟩ = .ok .chkStart) ∧
  ∀ s : State, exec .chkStart s = .next { s with
    rcrc := 0x000000#24
    hold := 0x000000#24
    rcnt := 0#2
    matchFlag := false
    resp := some ⟨statByte s.warn s.ovf s.err false false false false, 0#64⟩ }

/-- 42_frame.md R101: the word 0x3900; the byte that falls out of a full `hold` enters `rcrc`; else `rcnt` counts; the new byte is shifted in. -/
def Obligations.ChkByteResult : Prop :=
  (∀ d : Word, decode ⟨0x3900, d⟩ = .ok (.chkByte d)) ∧
  ∀ (d : Word) (s : State), exec (.chkByte d) s = .next { s with
    rcrc := if s.rcnt.toNat = 3 then crcByte s.rcrc (BitVec.ofNat 8 (s.hold.toNat / 65536)) else s.rcrc
    rcnt := if s.rcnt.toNat = 3 then s.rcnt else BitVec.ofNat 2 (s.rcnt.toNat + 1)
    hold := BitVec.ofNat 24 (s.hold.toNat * 256 + d.toNat % 256)
    resp := some ⟨plainStat s, 0#64⟩ }

/-- 42_frame.md R102: the word 0x3A00; the verdict, in both cases. -/
def Obligations.ChkResultResult : Prop :=
  (∀ d : Word, decode ⟨0x3A00, d⟩ = .ok .chkResult) ∧
  ∀ s : State,
    let m := decide (s.rcnt.toNat = 3 ∧ s.rcrc = s.hold)
    exec .chkResult s = .next { s with
      matchFlag := m
      resp := some ⟨statByte s.warn s.ovf s.err m false false false, BitVec.ofNat 64 m.toNat⟩ }

/-- 42_frame.md R103 (the spec's inference from R100 to R102): the checker law, command by command: `CHK_START` begins an empty
sequence, `CHK_BYTE` extends it, `CHK_RESULT` answers `check_frame` of it, and every other command leaves it. -/
def Obligations.CheckerLaw : Prop :=
  (∀ s : State, ∃ t, exec .chkStart s = .next t ∧ CheckerHolds [] t) ∧
  (∀ (bs : List Byte) (s : State), CheckerHolds bs s →
    (∀ d : Word, ∃ t, exec (.chkByte d) s = .next t ∧ CheckerHolds (bs ++ [d.setWidth 8]) t) ∧
    (∃ t, exec .chkResult s = .next t ∧ CheckerHolds bs t ∧ t.matchFlag = checkFrame bs ∧
      t.resp.map Response.value = some (BitVec.ofNat 64 (checkFrame bs).toNat)) ∧
    (∀ i t, isChecker i = false → exec i s = .next t → CheckerHolds bs t)) ∧
  CheckerHolds [] State.reset

/-- 30_encoding.md R59 (the spec's inference from R100 to R103): the commands of `CHECK b0 ... b(n-1)` answer `check_frame`, from every
state. That the host's commands are issued through a field of the state (`issue`) is the model's choice (log entry 1). -/
def Obligations.CheckCommandsComputeCheckFrame : Prop :=
  ∀ (bytes : List Byte) (s : State), ∃ t,
    core.run (bytes.length + 2) (issue (pseudoCheck bytes) s) = .next t ∧ t.matchFlag = checkFrame bytes ∧
      t.resp.map Response.value = some (BitVec.ofNat 64 (checkFrame bytes).toNat)

/-- 42_frame.md R104, R105 (the spec's inferences from R97, R99, R103): the bytes of the frame that `BUILD_FRAME` emitted, given to the
checker, answer 1; with exactly one bit inverted anywhere, 0. That the host's commands are issued through a field of the state
(`issue`) is the model's choice (log entry 1). -/
def Obligations.EmittedFrameChecksAndFlippedFrameDoesNot : Prop :=
  ∀ s t : State, Memory.wf s.pbuf s.plen = true → exec .buildFrame s = .next t →
    ∃ beats, t.out = s.out ++ beats ∧
      (∃ u, core.run (beats.length + 2) (issue (pseudoCheck (beats.map Beat.byte)) t) = .next u ∧ u.matchFlag = true ∧
        u.resp.map Response.value = some 1#64) ∧
      (∀ bytes, DifferInOneBit (beats.map Beat.byte) bytes →
        ∃ u, core.run (bytes.length + 2) (issue (pseudoCheck bytes) t) = .next u ∧ u.matchFlag = false ∧
          u.resp.map Response.value = some 0#64)

/-! ## The whole machine -/

/-- 10_state.md R29: the invariant holds at reset. -/
def Obligations.InvariantHoldsAtReset : Prop := Inv State.reset

/-- 10_state.md R29 (the spec's inference from R32, R99, R101, R113): every step keeps the invariant, from every state that has it. -/
def Obligations.EveryStepKeepsTheInvariant : Prop :=
  ∀ s t : State, Inv s → step s = .next t → Inv t

/-- 10_state.md R13, the column "written by": an element that a command changes is one of those the table lets it write; no command
touches what the host does next (the model's own field, log entry 1). -/
def Obligations.OnlyTheListedWritersWrite : Prop :=
  ∀ (i : Instr) (s t : State), exec i s = .next t →
    (t.crc ≠ s.crc → opOf i ∈ [.crcInit, .crcByte, .buildFrame]) ∧
    (t.pbuf ≠ s.pbuf ∨ t.plen ≠ s.plen → opOf i = .payClr ∨ ∃ k w d, i = encodeInstr k false w d) ∧
    (t.out ≠ s.out → opOf i = .buildFrame) ∧
    (t.warn ≠ s.warn → opOf i ∈ [.encU, .encS, .encSM, .clrFlags]) ∧
    (t.ovf ≠ s.ovf → opOf i = .clrFlags ∨ ∃ k w d, i = encodeInstr k false w d) ∧
    (t.err ≠ s.err → opOf i = .clrFlags) ∧
    (t.matchFlag ≠ s.matchFlag → opOf i ∈ [.chkResult, .chkStart]) ∧
    (t.rcrc ≠ s.rcrc ∨ t.hold ≠ s.hold ∨ t.rcnt ≠ s.rcnt → opOf i ∈ [.chkStart, .chkByte]) ∧
    t.pending = s.pending

/-- 10_state.md R19: `out` only grows, by whole frames, and only by `BUILD_FRAME`; from every state with a legal payload. -/
def Obligations.OutGrowsByWholeFramesOnly : Prop :=
  ∀ s t : State, Memory.wf s.pbuf s.plen = true → step s = .next t →
    t.out = s.out ∨
    ∃ c rest fr, s.pending = .command c :: rest ∧ decode c = .ok .buildFrame ∧ t.out = s.out ++ fr ∧ IsFrame fr

/-- 20_memory.md R39 (the spec's inference from the command rules): the reading commands change nothing but the response; `CHK_RESULT`
writes only `match` and repeats its verdict; `BUILD_FRAME` issued twice emits the frame twice. -/
def Obligations.ReadingCommandsHaveNoSideEffect : Prop :=
  (∀ (i : Instr) (s t : State), isReading i = true → exec i s = .next t → t = { s with resp := t.resp }) ∧
  (∀ s t u : State, exec .chkResult s = .next t → exec .chkResult t = .next u →
    t = { s with matchFlag := t.matchFlag, resp := t.resp } ∧ u.matchFlag = t.matchFlag ∧ u.resp = t.resp) ∧
  (∀ s t u : State, exec .buildFrame s = .next t → exec .buildFrame t = .next u →
    ∃ beats, t.out = s.out ++ beats ∧ u.out = s.out ++ beats ++ beats ∧ beats.map Beat.byte = buildFrame s.pbuf)

/-- 10_state.md R13, R14: nothing of the ports survives into a command: neither the last response nor what the host will do next is
read by any command (the two model fields, log entries 1 and 2). -/
def Obligations.PortsAreNotRead : Prop :=
  ∀ (i : Instr) (s t : State) (r : Option Response) (p : List HostAction), exec i s = .next t →
    exec i { s with resp := r, pending := p } = .next { t with pending := p }

/-- 70_reset_and_hazards.md R134 with 10_state.md R25 (the spec's inference): the checker's commands and all others do not disturb each
other: in either order they leave the same state, the response port apart. -/
def Obligations.CheckerCommutesWithTheRest : Prop :=
  ∀ (i j : Instr) (s a ab b ba : State), isChecker i = true → isChecker j = false →
    exec i s = .next a → exec j a = .next ab → exec j s = .next b → exec i b = .next ba →
    { ab with resp := none } = { ba with resp := none }
end

