-- ==== Sys2Proof/Laws/Bits.lean ====
section
/-!
SUPPORT. The small lemmas of bit strings and bytes (spec 00_scope.md R9): lengths, elements, concatenation, and that `bitsOf` undoes
`bytesOf`.
-/

namespace Sys2Proof.Machine

@[simp] theorem str_length {w : Nat} (f : BitVec w) : (str f).length = w := by simp [str]

theorem str_getElem {w : Nat} (f : BitVec w) (i : Nat) (h : i < (str f).length) :
    (str f)[i] = f.getLsbD (w - 1 - i) := by simp [str]

@[simp] theorem zeros_length (k : Nat) : (zeros k).length = k := by simp [zeros]

/-- The bits of a byte, written out. -/
theorem str_byte (b : Byte) : str b =
    [b.getLsbD 7, b.getLsbD 6, b.getLsbD 5, b.getLsbD 4, b.getLsbD 3, b.getLsbD 2, b.getLsbD 1, b.getLsbD 0] := by
  rfl

/-- The byte of eight bits has them as its bits. -/
theorem bytesOf_cons8 (b7 b6 b5 b4 b3 b2 b1 b0 : Bool) (rest : List Bool) :
    bytesOf (b7 :: b6 :: b5 :: b4 :: b3 :: b2 :: b1 :: b0 :: rest) =
      (BitVec.ofBool b7 ++ BitVec.ofBool b6 ++ BitVec.ofBool b5 ++ BitVec.ofBool b4 ++
        BitVec.ofBool b3 ++ BitVec.ofBool b2 ++ BitVec.ofBool b1 ++ BitVec.ofBool b0) :: bytesOf rest := rfl

@[simp] theorem bytesOf_nil : bytesOf [] = [] := rfl

theorem str_of_bools (b7 b6 b5 b4 b3 b2 b1 b0 : Bool) :
    str (BitVec.ofBool b7 ++ BitVec.ofBool b6 ++ BitVec.ofBool b5 ++ BitVec.ofBool b4 ++
      BitVec.ofBool b3 ++ BitVec.ofBool b2 ++ BitVec.ofBool b1 ++ BitVec.ofBool b0 : Byte) =
      [b7, b6, b5, b4, b3, b2, b1, b0] := by
  revert b7 b6 b5 b4 b3 b2 b1 b0; decide

theorem byte_of_bits (b : Byte) :
    (BitVec.ofBool (b.getLsbD 7) ++ BitVec.ofBool (b.getLsbD 6) ++ BitVec.ofBool (b.getLsbD 5) ++
      BitVec.ofBool (b.getLsbD 4) ++ BitVec.ofBool (b.getLsbD 3) ++ BitVec.ofBool (b.getLsbD 2) ++
      BitVec.ofBool (b.getLsbD 1) ++ BitVec.ofBool (b.getLsbD 0) : Byte) = b := by
  revert b; decide

/-- A whole byte in front of a bit string is a byte in front of its bytes. -/
theorem bytesOf_str_append (b : Byte) (s : List Bool) : bytesOf (str b ++ s) = b :: bytesOf s := by
  rw [str_byte]; simp only [List.cons_append, List.nil_append, bytesOf_cons8, byte_of_bits]

@[simp] theorem bitsOf_nil : bitsOf [] = [] := rfl

@[simp] theorem bitsOf_cons (b : Byte) (bs : List Byte) : bitsOf (b :: bs) = str b ++ bitsOf bs := rfl

@[simp] theorem bitsOf_append (a b : List Byte) : bitsOf (a ++ b) = bitsOf a ++ bitsOf b := by simp [bitsOf]

@[simp] theorem bitsOf_length (bs : List Byte) : (bitsOf bs).length = 8 * bs.length := by
  induction bs with
  | nil => rfl
  | cons b bs ih => simp [ih]; omega

/-- Reading the bits of bytes as bytes gives the bytes. -/
theorem bytesOf_bitsOf_append (bs : List Byte) (s : List Bool) : bytesOf (bitsOf bs ++ s) = bs ++ bytesOf s := by
  induction bs with
  | nil => rfl
  | cons b bs ih => rw [bitsOf_cons, List.append_assoc, bytesOf_str_append, ih]; rfl

@[simp] theorem bytesOf_bitsOf (bs : List Byte) : bytesOf (bitsOf bs) = bs := by
  simpa using bytesOf_bitsOf_append bs []

/-- A bit string of whole bytes is the bits of its bytes. -/
theorem bitsOf_bytesOf (s : List Bool) (h : 8 ∣ s.length) : bitsOf (bytesOf s) = s := by
  induction s using bytesOf.induct with
  | case1 b7 b6 b5 b4 b3 b2 b1 b0 rest ih =>
    rw [bytesOf_cons8, bitsOf_cons, str_of_bools, ih (by simp only [List.length_cons] at h; omega)]; rfl
  | case2 t hne =>
    match t, h, hne with
    | [], _, _ => rfl
    | [_], h, _ => simp at h
    | [_, _], h, _ => simp at h
    | [_, _, _], h, _ => simp at h
    | [_, _, _, _], h, _ => simp at h
    | [_, _, _, _, _], h, _ => simp at h
    | [_, _, _, _, _, _], h, _ => simp at h
    | [_, _, _, _, _, _, _], h, _ => simp at h
    | a :: b :: c :: d :: e :: f :: g :: i :: rest, _, hne => exact (hne a b c d e f g i rest rfl).elim

theorem bytesOf_length (s : List Bool) (h : 8 ∣ s.length) : (bytesOf s).length = s.length / 8 := by
  have := congrArg List.length (bitsOf_bytesOf s h)
  rw [bitsOf_length] at this; omega

/-- Whole bytes in front. -/
theorem bytesOf_append (s t : List Bool) (h : 8 ∣ s.length) : bytesOf (s ++ t) = bytesOf s ++ bytesOf t := by
  conv_lhs => rw [← bitsOf_bytesOf s h]
  exact bytesOf_bitsOf_append _ _

@[simp] theorem threeBytes_length (c : BitVec 24) : (threeBytes c).length = 3 := rfl

end Sys2Proof.Machine
end

