-- ==== Sys2Proof/Laws/Crc.lean ====
section
/-!
SUPPORT. The small lemmas of the CRC (spec 41_crc24q.md R81, R82): one bit is linear in register and message bit, a byte is the fold
over its bits, and a register fed its own top byte shifts.
-/

namespace Sys2Proof.Machine

/-- One bit is linear in (register, message bit) together. -/
theorem crcBit_xor (c c' : Crc) (d d' : Bool) : crcBit (c ^^^ c') (d ^^ d') = crcBit c d ^^^ crcBit c' d' := by
  simp only [crcBit, BitVec.getLsbD_xor, BitVec.shiftLeft_xor_distrib]
  generalize c <<< 1 = x
  generalize c' <<< 1 = y
  generalize Config.crcPoly = p
  apply BitVec.eq_of_getLsbD_eq
  intro i hi
  cases c.getLsbD 23 <;> cases c'.getLsbD 23 <;> cases d <;> cases d' <;> simp <;>
    cases x.getLsbD i <;> cases y.getLsbD i <;> cases p.getLsbD i <;> rfl

/-- The register's own top bit as the message bit feeds nothing back. -/
theorem crcBit_top (c : Crc) : crcBit c (c.getLsbD 23) = c <<< 1 := by simp [crcBit]

/-- A byte is the fold over its bits in wire order. -/
theorem crcByte_eq_foldl (c : Crc) (b : Byte) : crcByte c b = (str b).foldl crcBit c := rfl

/-- Bytes are the fold over their bits in wire order, from any register. -/
theorem foldl_crcByte_eq (bs : List Byte) (c : Crc) : bs.foldl crcByte c = (bitsOf bs).foldl crcBit c := by
  induction bs generalizing c with
  | nil => rfl
  | cons b bs ih => rw [bitsOf_cons, List.foldl_append, ← crcByte_eq_foldl, ← ih]; rfl

/-- The register fed its own top byte shifts by a byte. -/
theorem crcByte_top (c : Crc) : crcByte c (c.extractLsb' 16 8) = c <<< 8 := by
  have e : ∀ k, k ≤ 7 → crcBit (c <<< k) (c.getLsbD (16 + (7 - k))) = c <<< (k + 1) := by
    intro k hk
    have : c.getLsbD (16 + (7 - k)) = (c <<< k).getLsbD 23 := by
      rw [BitVec.getLsbD_shiftLeft, show 16 + (7 - k) = 23 - k by omega]; simp; omega
    rw [this, crcBit_top, ← BitVec.shiftLeft_add]
  have h0 := e 0 (by decide)
  have h1 := e 1 (by decide)
  have h2 := e 2 (by decide)
  have h3 := e 3 (by decide)
  have h4 := e 4 (by decide)
  have h5 := e 5 (by decide)
  have h6 := e 6 (by decide)
  have h7 := e 7 (by decide)
  simp only [BitVec.shiftLeft_zero, Nat.reduceAdd, Nat.reduceSub] at h0 h1 h2 h3 h4 h5 h6 h7
  simp only [crcByte, List.foldl_cons, List.foldl_nil, BitVec.getLsbD_extractLsb', Nat.reduceLT, Nat.reduceAdd,
    decide_true, Bool.true_and, h0, h1, h2, h3, h4, h5, h6, h7]

end Sys2Proof.Machine
end

