-- ==== Sys2Proof/Laws/Frame.lean ====
section
/-!
SUPPORT. The small lemmas of frames (spec 42_frame.md R94, R96, R99): lengths, the beats of a byte sequence, and the check of a sequence
with three bytes at its end.
-/

namespace Sys2Proof.Machine

@[simp] theorem header_length (n : Nat) : (header n).length = 24 := by simp [header]; rfl

/-- The padded payload is a whole number of bytes (R95). -/
theorem padded_length (p : List Bool) : (padded p).length = 8 * ((p.length + 7) / 8) := by
  simp [padded, payloadBytes, Nat.shiftRight_eq_div_pow]; omega

theorem frameBody_length (p : List Bool) : (frameBody p).length = 3 + (p.length + 7) / 8 := by
  rw [frameBody, bytesOf_length] <;> rw [List.length_append, header_length, padded_length] <;> omega

theorem buildFrame_length (p : List Bool) : (buildFrame p).length = (p.length + 7) / 8 + 6 := by
  simp [buildFrame, frameBody_length]; omega

@[simp] theorem beatsOf_length (bs : List Byte) : (beatsOf bs).length = bs.length := by simp [beatsOf]

@[simp] theorem beatsOf_bytes (bs : List Byte) : (beatsOf bs).map Beat.byte = bs := by
  apply List.ext_getElem <;> simp [beatsOf]

/-- `last` is on the final byte alone. -/
theorem beatsOf_snoc (bs : List Byte) (b : Byte) : beatsOf (bs ++ [b]) = bs.map (⟨·, false⟩) ++ [⟨b, true⟩] := by
  apply List.ext_getElem
  · simp
  · intro i h1 h2
    simp [beatsOf] at h1 ⊢
    rw [List.getElem_append, List.getElem_append]
    by_cases hi : i < bs.length
    · simp [hi]; omega
    · obtain rfl : i = bs.length := by omega
      simp

/-- The check of a sequence whose last three bytes are known. -/
theorem checkFrame_append (m : List Byte) (x y z : Byte) :
    checkFrame (m ++ [x, y, z]) = (threeBytes (crc24q m) == [x, y, z]) := by
  simp [checkFrame]

end Sys2Proof.Machine
end

