-- ==== Sys2Proof/Laws/State.lean ====
section
/-!
SUPPORT. One lemma per field per named update of the state, so that no later proof unfolds a record update. The updates are those of
Machine/Ops.lean.
-/

namespace Sys2Proof.Machine

/-! ## raiseEvent: the four flags, and the fields no event touches (60_exceptions.md R121) -/

@[simp] theorem raiseEvent_warn (e : Event) (s : State) : (raiseEvent e s).warn = (s.warn || e == .rangeWarning) := by
  cases e <;> simp [raiseEvent]
@[simp] theorem raiseEvent_ovf (e : Event) (s : State) : (raiseEvent e s).ovf = (s.ovf || e == .payloadOverflow) := by
  cases e <;> simp [raiseEvent]
@[simp] theorem raiseEvent_err (e : Event) (s : State) : (raiseEvent e s).err = (s.err || e == .illegalCommand) := by
  cases e <;> simp [raiseEvent]
@[simp] theorem raiseEvent_matchFlag (e : Event) (s : State) :
    (raiseEvent e s).matchFlag = (s.matchFlag && e != .crcMismatch) := by
  cases e <;> simp [raiseEvent]
@[simp] theorem raiseEvent_crc (e : Event) (s : State) : (raiseEvent e s).crc = s.crc := by cases e <;> rfl
@[simp] theorem raiseEvent_pbuf (e : Event) (s : State) : (raiseEvent e s).pbuf = s.pbuf := by cases e <;> rfl
@[simp] theorem raiseEvent_plen (e : Event) (s : State) : (raiseEvent e s).plen = s.plen := by cases e <;> rfl
@[simp] theorem raiseEvent_out (e : Event) (s : State) : (raiseEvent e s).out = s.out := by cases e <;> rfl
@[simp] theorem raiseEvent_rcrc (e : Event) (s : State) : (raiseEvent e s).rcrc = s.rcrc := by cases e <;> rfl
@[simp] theorem raiseEvent_hold (e : Event) (s : State) : (raiseEvent e s).hold = s.hold := by cases e <;> rfl
@[simp] theorem raiseEvent_rcnt (e : Event) (s : State) : (raiseEvent e s).rcnt = s.rcnt := by cases e <;> rfl
@[simp] theorem raiseEvent_pending (e : Event) (s : State) : (raiseEvent e s).pending = s.pending := by cases e <;> rfl
@[simp] theorem raiseEvent_resp (e : Event) (s : State) : (raiseEvent e s).resp = s.resp := by cases e <;> rfl

/-! ## clearFlags -/

@[simp] theorem clearFlags_crc (mask : BitVec 3) (s : State) : (clearFlags mask s).crc = s.crc := rfl
@[simp] theorem clearFlags_pbuf (mask : BitVec 3) (s : State) : (clearFlags mask s).pbuf = s.pbuf := rfl
@[simp] theorem clearFlags_plen (mask : BitVec 3) (s : State) : (clearFlags mask s).plen = s.plen := rfl
@[simp] theorem clearFlags_out (mask : BitVec 3) (s : State) : (clearFlags mask s).out = s.out := rfl
@[simp] theorem clearFlags_warn (mask : BitVec 3) (s : State) : (clearFlags mask s).warn = (s.warn && !mask.getLsbD 0) := rfl
@[simp] theorem clearFlags_ovf (mask : BitVec 3) (s : State) : (clearFlags mask s).ovf = (s.ovf && !mask.getLsbD 1) := rfl
@[simp] theorem clearFlags_err (mask : BitVec 3) (s : State) : (clearFlags mask s).err = (s.err && !mask.getLsbD 2) := rfl
@[simp] theorem clearFlags_matchFlag (mask : BitVec 3) (s : State) : (clearFlags mask s).matchFlag = s.matchFlag := rfl
@[simp] theorem clearFlags_rcrc (mask : BitVec 3) (s : State) : (clearFlags mask s).rcrc = s.rcrc := rfl
@[simp] theorem clearFlags_hold (mask : BitVec 3) (s : State) : (clearFlags mask s).hold = s.hold := rfl
@[simp] theorem clearFlags_rcnt (mask : BitVec 3) (s : State) : (clearFlags mask s).rcnt = s.rcnt := rfl
@[simp] theorem clearFlags_pending (mask : BitVec 3) (s : State) : (clearFlags mask s).pending = s.pending := rfl
@[simp] theorem clearFlags_resp (mask : BitVec 3) (s : State) : (clearFlags mask s).resp = s.resp := rfl

/-! ## respond -/

@[simp] theorem respond_crc (events : List Event) (v : Word) (s : State) : (respond events v s).crc = s.crc := rfl
@[simp] theorem respond_pbuf (events : List Event) (v : Word) (s : State) : (respond events v s).pbuf = s.pbuf := rfl
@[simp] theorem respond_plen (events : List Event) (v : Word) (s : State) : (respond events v s).plen = s.plen := rfl
@[simp] theorem respond_out (events : List Event) (v : Word) (s : State) : (respond events v s).out = s.out := rfl
@[simp] theorem respond_warn (events : List Event) (v : Word) (s : State) : (respond events v s).warn = s.warn := rfl
@[simp] theorem respond_ovf (events : List Event) (v : Word) (s : State) : (respond events v s).ovf = s.ovf := rfl
@[simp] theorem respond_err (events : List Event) (v : Word) (s : State) : (respond events v s).err = s.err := rfl
@[simp] theorem respond_matchFlag (events : List Event) (v : Word) (s : State) : (respond events v s).matchFlag = s.matchFlag := rfl
@[simp] theorem respond_rcrc (events : List Event) (v : Word) (s : State) : (respond events v s).rcrc = s.rcrc := rfl
@[simp] theorem respond_hold (events : List Event) (v : Word) (s : State) : (respond events v s).hold = s.hold := rfl
@[simp] theorem respond_rcnt (events : List Event) (v : Word) (s : State) : (respond events v s).rcnt = s.rcnt := rfl
@[simp] theorem respond_pending (events : List Event) (v : Word) (s : State) : (respond events v s).pending = s.pending := rfl
@[simp] theorem respond_resp (events : List Event) (v : Word) (s : State) : (respond events v s).resp = some ⟨statOf events s, v⟩ := rfl

/-! ## pushField -/

@[simp] theorem pushField_crc {w : Nat} (f : BitVec w) (s : State) : (pushField f s).crc = s.crc := rfl
@[simp] theorem pushField_pbuf {w : Nat} (f : BitVec w) (s : State) : (pushField f s).pbuf = s.pbuf ++ str f := rfl
@[simp] theorem pushField_plen {w : Nat} (f : BitVec w) (s : State) : (pushField f s).plen = BitVec.ofNat 14 (s.plen.toNat + w) := rfl
@[simp] theorem pushField_out {w : Nat} (f : BitVec w) (s : State) : (pushField f s).out = s.out := rfl
@[simp] theorem pushField_warn {w : Nat} (f : BitVec w) (s : State) : (pushField f s).warn = s.warn := rfl
@[simp] theorem pushField_ovf {w : Nat} (f : BitVec w) (s : State) : (pushField f s).ovf = s.ovf := rfl
@[simp] theorem pushField_err {w : Nat} (f : BitVec w) (s : State) : (pushField f s).err = s.err := rfl
@[simp] theorem pushField_matchFlag {w : Nat} (f : BitVec w) (s : State) : (pushField f s).matchFlag = s.matchFlag := rfl
@[simp] theorem pushField_rcrc {w : Nat} (f : BitVec w) (s : State) : (pushField f s).rcrc = s.rcrc := rfl
@[simp] theorem pushField_hold {w : Nat} (f : BitVec w) (s : State) : (pushField f s).hold = s.hold := rfl
@[simp] theorem pushField_rcnt {w : Nat} (f : BitVec w) (s : State) : (pushField f s).rcnt = s.rcnt := rfl
@[simp] theorem pushField_pending {w : Nat} (f : BitVec w) (s : State) : (pushField f s).pending = s.pending := rfl
@[simp] theorem pushField_resp {w : Nat} (f : BitVec w) (s : State) : (pushField f s).resp = s.resp := rfl

/-! ## clearPayload -/

@[simp] theorem clearPayload_crc (s : State) : (clearPayload s).crc = s.crc := rfl
@[simp] theorem clearPayload_pbuf (s : State) : (clearPayload s).pbuf = [] := rfl
@[simp] theorem clearPayload_plen (s : State) : (clearPayload s).plen = 0#14 := rfl
@[simp] theorem clearPayload_out (s : State) : (clearPayload s).out = s.out := rfl
@[simp] theorem clearPayload_warn (s : State) : (clearPayload s).warn = s.warn := rfl
@[simp] theorem clearPayload_ovf (s : State) : (clearPayload s).ovf = s.ovf := rfl
@[simp] theorem clearPayload_err (s : State) : (clearPayload s).err = s.err := rfl
@[simp] theorem clearPayload_matchFlag (s : State) : (clearPayload s).matchFlag = s.matchFlag := rfl
@[simp] theorem clearPayload_rcrc (s : State) : (clearPayload s).rcrc = s.rcrc := rfl
@[simp] theorem clearPayload_hold (s : State) : (clearPayload s).hold = s.hold := rfl
@[simp] theorem clearPayload_rcnt (s : State) : (clearPayload s).rcnt = s.rcnt := rfl
@[simp] theorem clearPayload_pending (s : State) : (clearPayload s).pending = s.pending := rfl
@[simp] theorem clearPayload_resp (s : State) : (clearPayload s).resp = s.resp := rfl

/-! ## emit -/

@[simp] theorem emit_crc (b : Beat) (s : State) : (emit b s).crc = s.crc := rfl
@[simp] theorem emit_pbuf (b : Beat) (s : State) : (emit b s).pbuf = s.pbuf := rfl
@[simp] theorem emit_plen (b : Beat) (s : State) : (emit b s).plen = s.plen := rfl
@[simp] theorem emit_out (b : Beat) (s : State) : (emit b s).out = s.out ++ [b] := rfl
@[simp] theorem emit_warn (b : Beat) (s : State) : (emit b s).warn = s.warn := rfl
@[simp] theorem emit_ovf (b : Beat) (s : State) : (emit b s).ovf = s.ovf := rfl
@[simp] theorem emit_err (b : Beat) (s : State) : (emit b s).err = s.err := rfl
@[simp] theorem emit_matchFlag (b : Beat) (s : State) : (emit b s).matchFlag = s.matchFlag := rfl
@[simp] theorem emit_rcrc (b : Beat) (s : State) : (emit b s).rcrc = s.rcrc := rfl
@[simp] theorem emit_hold (b : Beat) (s : State) : (emit b s).hold = s.hold := rfl
@[simp] theorem emit_rcnt (b : Beat) (s : State) : (emit b s).rcnt = s.rcnt := rfl
@[simp] theorem emit_pending (b : Beat) (s : State) : (emit b s).pending = s.pending := rfl
@[simp] theorem emit_resp (b : Beat) (s : State) : (emit b s).resp = s.resp := rfl

/-! ## writeCrc -/

@[simp] theorem writeCrc_crc (c : Crc) (s : State) : (writeCrc c s).crc = c := rfl
@[simp] theorem writeCrc_pbuf (c : Crc) (s : State) : (writeCrc c s).pbuf = s.pbuf := rfl
@[simp] theorem writeCrc_plen (c : Crc) (s : State) : (writeCrc c s).plen = s.plen := rfl
@[simp] theorem writeCrc_out (c : Crc) (s : State) : (writeCrc c s).out = s.out := rfl
@[simp] theorem writeCrc_warn (c : Crc) (s : State) : (writeCrc c s).warn = s.warn := rfl
@[simp] theorem writeCrc_ovf (c : Crc) (s : State) : (writeCrc c s).ovf = s.ovf := rfl
@[simp] theorem writeCrc_err (c : Crc) (s : State) : (writeCrc c s).err = s.err := rfl
@[simp] theorem writeCrc_matchFlag (c : Crc) (s : State) : (writeCrc c s).matchFlag = s.matchFlag := rfl
@[simp] theorem writeCrc_rcrc (c : Crc) (s : State) : (writeCrc c s).rcrc = s.rcrc := rfl
@[simp] theorem writeCrc_hold (c : Crc) (s : State) : (writeCrc c s).hold = s.hold := rfl
@[simp] theorem writeCrc_rcnt (c : Crc) (s : State) : (writeCrc c s).rcnt = s.rcnt := rfl
@[simp] theorem writeCrc_pending (c : Crc) (s : State) : (writeCrc c s).pending = s.pending := rfl
@[simp] theorem writeCrc_resp (c : Crc) (s : State) : (writeCrc c s).resp = s.resp := rfl

/-! ## writeMatch -/

@[simp] theorem writeMatch_crc (v : Bool) (s : State) : (writeMatch v s).crc = s.crc := rfl
@[simp] theorem writeMatch_pbuf (v : Bool) (s : State) : (writeMatch v s).pbuf = s.pbuf := rfl
@[simp] theorem writeMatch_plen (v : Bool) (s : State) : (writeMatch v s).plen = s.plen := rfl
@[simp] theorem writeMatch_out (v : Bool) (s : State) : (writeMatch v s).out = s.out := rfl
@[simp] theorem writeMatch_warn (v : Bool) (s : State) : (writeMatch v s).warn = s.warn := rfl
@[simp] theorem writeMatch_ovf (v : Bool) (s : State) : (writeMatch v s).ovf = s.ovf := rfl
@[simp] theorem writeMatch_err (v : Bool) (s : State) : (writeMatch v s).err = s.err := rfl
@[simp] theorem writeMatch_matchFlag (v : Bool) (s : State) : (writeMatch v s).matchFlag = v := rfl
@[simp] theorem writeMatch_rcrc (v : Bool) (s : State) : (writeMatch v s).rcrc = s.rcrc := rfl
@[simp] theorem writeMatch_hold (v : Bool) (s : State) : (writeMatch v s).hold = s.hold := rfl
@[simp] theorem writeMatch_rcnt (v : Bool) (s : State) : (writeMatch v s).rcnt = s.rcnt := rfl
@[simp] theorem writeMatch_pending (v : Bool) (s : State) : (writeMatch v s).pending = s.pending := rfl
@[simp] theorem writeMatch_resp (v : Bool) (s : State) : (writeMatch v s).resp = s.resp := rfl

/-! ## writeChecker -/

@[simp] theorem writeChecker_crc (r : Crc) (h : BitVec 24) (n : BitVec 2) (s : State) : (writeChecker r h n s).crc = s.crc := rfl
@[simp] theorem writeChecker_pbuf (r : Crc) (h : BitVec 24) (n : BitVec 2) (s : State) : (writeChecker r h n s).pbuf = s.pbuf := rfl
@[simp] theorem writeChecker_plen (r : Crc) (h : BitVec 24) (n : BitVec 2) (s : State) : (writeChecker r h n s).plen = s.plen := rfl
@[simp] theorem writeChecker_out (r : Crc) (h : BitVec 24) (n : BitVec 2) (s : State) : (writeChecker r h n s).out = s.out := rfl
@[simp] theorem writeChecker_warn (r : Crc) (h : BitVec 24) (n : BitVec 2) (s : State) : (writeChecker r h n s).warn = s.warn := rfl
@[simp] theorem writeChecker_ovf (r : Crc) (h : BitVec 24) (n : BitVec 2) (s : State) : (writeChecker r h n s).ovf = s.ovf := rfl
@[simp] theorem writeChecker_err (r : Crc) (h : BitVec 24) (n : BitVec 2) (s : State) : (writeChecker r h n s).err = s.err := rfl
@[simp] theorem writeChecker_matchFlag (r : Crc) (h : BitVec 24) (n : BitVec 2) (s : State) : (writeChecker r h n s).matchFlag = s.matchFlag := rfl
@[simp] theorem writeChecker_rcrc (r : Crc) (h : BitVec 24) (n : BitVec 2) (s : State) : (writeChecker r h n s).rcrc = r := rfl
@[simp] theorem writeChecker_hold (r : Crc) (h : BitVec 24) (n : BitVec 2) (s : State) : (writeChecker r h n s).hold = h := rfl
@[simp] theorem writeChecker_rcnt (r : Crc) (h : BitVec 24) (n : BitVec 2) (s : State) : (writeChecker r h n s).rcnt = n := rfl
@[simp] theorem writeChecker_pending (r : Crc) (h : BitVec 24) (n : BitVec 2) (s : State) : (writeChecker r h n s).pending = s.pending := rfl
@[simp] theorem writeChecker_resp (r : Crc) (h : BitVec 24) (n : BitVec 2) (s : State) : (writeChecker r h n s).resp = s.resp := rfl

/-! ## assertReset -/

@[simp] theorem assertReset_crc (s : State) : (assertReset s).crc = 0#24 := rfl
@[simp] theorem assertReset_pbuf (s : State) : (assertReset s).pbuf = [] := rfl
@[simp] theorem assertReset_plen (s : State) : (assertReset s).plen = 0#14 := rfl
@[simp] theorem assertReset_out (s : State) : (assertReset s).out = s.out := rfl
@[simp] theorem assertReset_warn (s : State) : (assertReset s).warn = false := rfl
@[simp] theorem assertReset_ovf (s : State) : (assertReset s).ovf = false := rfl
@[simp] theorem assertReset_err (s : State) : (assertReset s).err = false := rfl
@[simp] theorem assertReset_matchFlag (s : State) : (assertReset s).matchFlag = false := rfl
@[simp] theorem assertReset_rcrc (s : State) : (assertReset s).rcrc = 0#24 := rfl
@[simp] theorem assertReset_hold (s : State) : (assertReset s).hold = 0#24 := rfl
@[simp] theorem assertReset_rcnt (s : State) : (assertReset s).rcnt = 0#2 := rfl
@[simp] theorem assertReset_pending (s : State) : (assertReset s).pending = s.pending := rfl
@[simp] theorem assertReset_resp (s : State) : (assertReset s).resp = none := rfl

end Sys2Proof.Machine
end

