-- ==== Sys2Proof/Laws/Ops.lean ====
section
/-!
SUPPORT. For each shared operation of Machine/Ops.lean, one lemma that says everything it can do; and that every memory operation
keeps the canonical form of the payload memory (spec 10_state.md R17, R18).
-/

namespace Sys2Proof.Machine

/-! ## The port -/

theorem takeAction_nil {s : State} (h : s.pending = []) : takeAction s = none := by simp [takeAction, h]

theorem takeAction_cons {s : State} {a : HostAction} {rest : List HostAction} (h : s.pending = a :: rest) :
    takeAction s = some (a, { s with pending := rest }) := by simp [takeAction, h]

/-! ## Events -/

/-- Everything a list of events does: each flag rises when its event is in the list, `match` falls, nothing else changes. -/
theorem raiseEvents_eq (events : List Event) (s : State) :
    raiseEvents events s = { s with
      warn := s.warn || events.contains .rangeWarning
      ovf := s.ovf || events.contains .payloadOverflow
      err := s.err || events.contains .illegalCommand
      matchFlag := s.matchFlag && !events.contains .crcMismatch } := by
  induction events generalizing s with
  | nil => simp [raiseEvents]
  | cons e es ih =>
    have : raiseEvents (e :: es) s = raiseEvents es (raiseEvent e s) := rfl
    rw [this, ih]
    cases e <;> simp [raiseEvent]

/-! ## The end of a step -/

/-- `complete` always answers a next state, which differs in the response alone. -/
theorem complete_eq (events : List Event) (v : Word) (s : State) :
    complete events v s = .next { s with resp := some ⟨statOf events s, v⟩ } := rfl

theorem complete_next_iff {events : List Event} {v : Word} {s t : State} :
    complete events v s = .next t ↔ t = respond events v s := by
  simp [complete, eq_comm]

theorem illegalCommand_eq (why : DecodeError) (s : State) :
    illegalCommand why s = .next { s with
      err := true
      resp := some ⟨statOf [.illegalCommand] { s with err := true }, 0#64⟩ } := rfl

/-! ## The payload buffer -/

/-- Both outcomes of an append. -/
theorem pbufAppend_cases {w : Nat} (f : BitVec w) (s : State) :
    (s.plen.toNat + w ≤ 8184 ∧ pbufAppend f s = ([], pushField f s)) ∨
    (8184 < s.plen.toNat + w ∧ pbufAppend f s = ([.payloadOverflow], { s with ovf := true })) := by
  by_cases h : s.plen.toNat + w ≤ 8184
  · exact .inl ⟨h, by simp [pbufAppend, appendFits, Config.pbufBits, h]⟩
  · exact .inr ⟨by omega, by simp [pbufAppend, appendFits, Config.pbufBits, h, raiseEvent]⟩

theorem wf_iff (pbuf : List Bool) (plen : BitVec 14) :
    Memory.wf pbuf plen = true ↔ pbuf.length = plen.toNat ∧ plen.toNat ≤ 8184 := by
  simp [Memory.wf]

theorem reset_wf : Memory.wf State.reset.pbuf State.reset.plen = true := by decide

theorem clearPayload_wf (s : State) : Memory.wf (clearPayload s).pbuf (clearPayload s).plen = true := by
  simp [wf_iff]

theorem assertReset_wf (s : State) : Memory.wf (assertReset s).pbuf (assertReset s).plen = true := by
  simp [wf_iff]

/-- A field that fits is pushed whole and the form stays canonical. -/
theorem pushField_wf {w : Nat} (f : BitVec w) (s : State) (h : Memory.wf s.pbuf s.plen = true)
    (hfit : s.plen.toNat + w ≤ 8184) : Memory.wf (pushField f s).pbuf (pushField f s).plen = true := by
  rw [wf_iff] at h ⊢
  simp only [pushField_pbuf, pushField_plen, List.length_append, str_length, BitVec.toNat_ofNat]
  omega

/-- `PbufAppend`, the only write to the payload buffer, keeps the canonical form. -/
theorem pbufAppend_wf {w : Nat} (f : BitVec w) (s : State) (h : Memory.wf s.pbuf s.plen = true) :
    Memory.wf (pbufAppend f s).2.pbuf (pbufAppend f s).2.plen = true := by
  rcases pbufAppend_cases f s with ⟨hfit, heq⟩ | ⟨_, heq⟩
  · rw [heq]; exact pushField_wf f s h hfit
  · rw [heq]; exact h

/-! ## The output stream -/

/-- `emitAll` appends the beats in order and changes nothing else. -/
theorem emitAll_eq (beats : List Beat) (s : State) : emitAll beats s = { s with out := s.out ++ beats } := by
  induction beats generalizing s with
  | nil => simp [emitAll]
  | cons b bs ih =>
    have : emitAll (b :: bs) s = emitAll bs (emit b s) := rfl
    rw [this, ih]; simp [emit]

end Sys2Proof.Machine
end

