-- ==== Sys2Proof/Laws/Meanings.lean ====
section
/-!
SUPPORT. The response status by bit weights, and the one equation of the operation the three encode commands share (spec
30_encoding.md R49, 40_bitfield.md R67).
-/

namespace Sys2Proof.Machine

open Sys2Proof.Safety

/-- `STATUS` by bit weights (10_state.md R24). -/
theorem statusReg_eq_statByte (s : State) :
    statusReg s = statByte s.warn s.ovf s.err s.matchFlag false false false := by
  have h : ∀ w o e m : Bool,
      (0#4 ++ BitVec.ofBool m ++ BitVec.ofBool e ++ BitVec.ofBool o ++ BitVec.ofBool w : BitVec 8) =
        statByte w o e m false false false := by decide
  exact h _ _ _ _

/-- `stat` by bit weights (30_encoding.md R49). -/
theorem statOf_eq_statByte (events : List Event) (s : State) :
    statOf events s = statByte s.warn s.ovf s.err s.matchFlag (events.contains .rangeWarning)
      (events.contains .payloadOverflow) (events.contains .illegalCommand) := by
  have h : ∀ w o e m a b c : Bool,
      (0#1 ++ BitVec.ofBool c ++ BitVec.ofBool b ++ BitVec.ofBool a ++
        (statByte w o e m false false false).extractLsb' 0 4 : BitVec 8) = statByte w o e m a b c := by decide
  rw [statOf, statusReg_eq_statByte]
  exact h _ _ _ _ _ _ _

/-- A command that raises nothing answers with the flags as they are. -/
theorem statOf_nil (s : State) : statOf [] s = plainStat s := statOf_eq_statByte [] s

/-- Everything an encode can do, for any field, flag and state. -/
theorem encodeAndAppend_eq {w : Nat} (e : Encoded w) (na : Bool) (s : State) :
    encodeAndAppend e na s = .next { s with
      warn := s.warn || !e.inr
      pbuf := if !na && appendFits w s then s.pbuf ++ str e.f else s.pbuf
      plen := if !na && appendFits w s then BitVec.ofNat 14 (s.plen.toNat + w) else s.plen
      ovf := s.ovf || (!na && !appendFits w s)
      resp := some ⟨statByte (s.warn || !e.inr) (s.ovf || (!na && !appendFits w s)) s.err s.matchFlag
        (!e.inr) (!na && !appendFits w s) false, e.f.setWidth 64⟩ } := by
  have hr : raiseEvents (if e.inr then [] else [Event.rangeWarning]) s = { s with warn := s.warn || !e.inr } := by
    rw [raiseEvents_eq]; cases e.inr <;> simp
  have hf : appendFits w { s with warn := s.warn || !e.inr } = appendFits w s := rfl
  unfold encodeAndAppend
  simp only [hr]
  cases na
  · cases h : appendFits w s <;>
      simp only [pbufAppend, hf, h, complete_eq, statOf_eq_statByte, raiseEvent, pushField] <;>
      cases e.inr <;> simp
  · simp only [complete_eq, statOf_eq_statByte]; cases e.inr <;> simp

end Sys2Proof.Machine
end

