-- ==== Sys2Proof/Laws/PerInstr.lean ====
section
/-!
SUPPORT. The statements made per instruction. `EncodedRow`: the word a well-formed command assembles to selects the row of the match
and mask table (spec 30_encoding.md R53) that bears the command's own mnemonic.
-/

namespace Sys2Proof.Laws.EncodedRow

/-- A well-formed command's word selects its own row of R53. -/
def Statement (i : Instr) : Prop :=
  wellFormed i = true → ∃ r ∈ opcodeRows, r.op = opOf i ∧ r.selects (encode i).cmd = true

/-- The word of any `op`, flag and width under any mask that frees both. -/
theorem cmdWordOf_and_we (o : Op) (na : Bool) (wm1 : BitVec 6) :
    cmdWordOf o na wm1 &&& 0xFF40#16 = o.code ++ 0#8 := by
  cases o <;> revert na wm1 <;> decide

/-- The word of any `op` and width, not flagged, under the mask that frees the width. -/
theorem cmdWordOf_and_wd (o : Op) (wm1 : BitVec 6) : cmdWordOf o false wm1 &&& 0xFFC0#16 = o.code ++ 0#8 := by
  cases o <;> revert wm1 <;> decide

theorem nop : Statement .nop := fun _ => by decide
theorem rdStatus : Statement .rdStatus := fun _ => by decide
theorem clrFlags (d : Word) : Statement (.clrFlags d) :=
  fun _ => ⟨⟨.clrFlags, 0x0200#16, 0xFFFF#16⟩, by decide, rfl, by simp only [OpcodeRow.selects, encode]; decide⟩
theorem rdPlen : Statement .rdPlen := fun _ => by decide
theorem encU (na : Bool) (w : Nat) (d : Word) : Statement (.encU na w d) :=
  fun _ => ⟨⟨.encU, 0x1000#16, 0xFF40#16⟩, by decide, rfl, by
    simp only [OpcodeRow.selects, encode]; rw [cmdWordOf_and_we]; decide⟩
theorem encS (na : Bool) (w : Nat) (d : Word) : Statement (.encS na w d) :=
  fun _ => ⟨⟨.encS, 0x1100#16, 0xFF40#16⟩, by decide, rfl, by
    simp only [OpcodeRow.selects, encode]; rw [cmdWordOf_and_we]; decide⟩
theorem encSM (na : Bool) (w : Nat) (d : Word) : Statement (.encSM na w d) :=
  fun _ => ⟨⟨.encSM, 0x1200#16, 0xFF40#16⟩, by decide, rfl, by
    simp only [OpcodeRow.selects, encode]; rw [cmdWordOf_and_we]; decide⟩
theorem decU (w : Nat) (d : Word) : Statement (.decU w d) :=
  fun _ => ⟨⟨.decU, 0x1800#16, 0xFFC0#16⟩, by decide, rfl, by
    simp only [OpcodeRow.selects, encode]; rw [cmdWordOf_and_wd]; decide⟩
theorem decS (w : Nat) (d : Word) : Statement (.decS w d) :=
  fun _ => ⟨⟨.decS, 0x1900#16, 0xFFC0#16⟩, by decide, rfl, by
    simp only [OpcodeRow.selects, encode]; rw [cmdWordOf_and_wd]; decide⟩
theorem decSM (w : Nat) (d : Word) : Statement (.decSM w d) :=
  fun _ => ⟨⟨.decSM, 0x1A00#16, 0xFFC0#16⟩, by decide, rfl, by
    simp only [OpcodeRow.selects, encode]; rw [cmdWordOf_and_wd]; decide⟩
theorem crcInit : Statement .crcInit := fun _ => by decide
theorem crcByte (d : Word) : Statement (.crcByte d) :=
  fun _ => ⟨⟨.crcByte, 0x2100#16, 0xFFFF#16⟩, by decide, rfl, by simp only [OpcodeRow.selects, encode]; decide⟩
theorem crcRd : Statement .crcRd := fun _ => by decide
theorem payClr : Statement .payClr := fun _ => by decide
theorem buildFrame : Statement .buildFrame := fun _ => by decide
theorem chkStart : Statement .chkStart := fun _ => by decide
theorem chkByte (d : Word) : Statement (.chkByte d) :=
  fun _ => ⟨⟨.chkByte, 0x3900#16, 0xFFFF#16⟩, by decide, rfl, by simp only [OpcodeRow.selects, encode]; decide⟩
theorem chkResult : Statement .chkResult := fun _ => by decide

end Sys2Proof.Laws.EncodedRow
end

