-- ==== Sys2Proof/Tests/Slice0.lean ====
section
/-!
SUPPORT. The model's own tests. Expected results are the spec's: its encodings (30_encoding.md), its worked examples and
95_test_vectors.md (V1 to V11, P1 to P5); the comment above a test names its source.
-/

namespace Sys2Proof.Tests

open Sys2Proof.Machine Sys2Proof.Safety

/-! ## Helpers -/

/-- `s` with this word and operand on the port. -/
def onPort (cmd : CmdWord) (data : Word) (s : State) : State := { s with pending := [.command ⟨cmd, data⟩] }

/-- The state after one step with that command. -/
def after (cmd : CmdWord) (data : Word) (s : State) : State :=
  match step (onPort cmd data s) with
  | .next t => t
  | .fault _ => s
  | .refused _ => s

/-- `stat` and `value` of its response. -/
def answer (cmd : CmdWord) (data : Word) (s : State) : Option (BitVec 8 × Word) :=
  (after cmd data s).resp.map (fun r => (r.stat, r.value))

/-- A state with this payload. -/
def withPayload (p : List Bool) : State := { State.reset with pbuf := p, plen := BitVec.ofNat 14 p.length }

/-- V1, the reference frame: the 22 bytes before the CRC. -/
def v1Front : List Byte :=
  [0xD3, 0x00, 0x13, 0x3E, 0xD7, 0xD3, 0x02, 0x02, 0x98, 0x0E, 0xDE, 0xEF, 0x34, 0xB4, 0xBD, 0x62, 0xAC, 0x09, 0x41, 0x98,
   0x6F, 0x33]

/-- V2, the thirteen fields of the reference payload. -/
def v2Fields : List FieldSpec :=
  [⟨.u, 12, 1005⟩, ⟨.u, 12, 2003⟩, ⟨.u, 6, 0⟩, ⟨.u, 1, 1⟩, ⟨.u, 1, 0⟩, ⟨.u, 1, 0⟩, ⟨.u, 1, 0⟩, ⟨.s, 38, 11141045999⟩,
   ⟨.u, 1, 0⟩, ⟨.u, 1, 0⟩, ⟨.s, 38, -48507297108⟩, ⟨.u, 2, 0⟩, ⟨.s, 38, 39755214643⟩]

/-! ## Well-formedness: each check refuses a width the port cannot express (30_encoding.md R51) -/

theorem test_encU_width : wellFormed (.encU false 0 1) = false ∧ wellFormed (.encU true 65 1) = false := by decide
theorem test_encS_width : wellFormed (.encS false 0 1) = false ∧ wellFormed (.encS true 65 1) = false := by decide
theorem test_encSM_width : wellFormed (.encSM false 0 1) = false ∧ wellFormed (.encSM true 65 1) = false := by decide
theorem test_decU_width : wellFormed (.decU 0 1) = false ∧ wellFormed (.decU 65 1) = false := by decide
theorem test_decS_width : wellFormed (.decS 0 1) = false ∧ wellFormed (.decS 65 1) = false := by decide
theorem test_decSM_width : wellFormed (.decSM 0 1) = false ∧ wellFormed (.decSM 65 1) = false := by decide

/-! ## Decoding: every constructor, from a word written out by R47 and R53 (`op`, `na`, 0, `wm1`) -/

theorem test_decode_nop : decode ⟨0b00000000_0_0_000000, 5⟩ = .ok .nop := by decide
theorem test_decode_rdStatus : decode ⟨0b00000001_0_0_000000, 5⟩ = .ok .rdStatus := by decide
theorem test_decode_clrFlags : decode ⟨0b00000010_0_0_000000, 5⟩ = .ok (.clrFlags 5) := by decide
theorem test_decode_rdPlen : decode ⟨0b00000011_0_0_000000, 5⟩ = .ok .rdPlen := by decide
-- width 12 is wm1 = 11 (R53's example 0x100B); width 64 is wm1 = 63
theorem test_decode_encU : decode ⟨0b00010000_0_0_001011, 5⟩ = .ok (.encU false 12 5) ∧
    decode ⟨0b00010000_1_0_111111, 5⟩ = .ok (.encU true 64 5) := by decide
-- R53's example 0x1125
theorem test_decode_encS : decode ⟨0b00010001_0_0_100101, 5⟩ = .ok (.encS false 38 5) := by decide
-- R53's example 0x1297
theorem test_decode_encSM : decode ⟨0b00010010_1_0_010111, 5⟩ = .ok (.encSM true 24 5) := by decide
theorem test_decode_decU : decode ⟨0b00011000_0_0_000000, 5⟩ = .ok (.decU 1 5) := by decide
-- R53's example 0x1925
theorem test_decode_decS : decode ⟨0b00011001_0_0_100101, 5⟩ = .ok (.decS 38 5) := by decide
theorem test_decode_decSM : decode ⟨0b00011010_0_0_000100, 5⟩ = .ok (.decSM 5 5) := by decide
theorem test_decode_crcInit : decode ⟨0b00100000_0_0_000000, 5⟩ = .ok .crcInit := by decide
theorem test_decode_crcByte : decode ⟨0b00100001_0_0_000000, 5⟩ = .ok (.crcByte 5) := by decide
theorem test_decode_crcRd : decode ⟨0b00100010_0_0_000000, 5⟩ = .ok .crcRd := by decide
theorem test_decode_payClr : decode ⟨0b00110000_0_0_000000, 5⟩ = .ok .payClr := by decide
theorem test_decode_buildFrame : decode ⟨0b00110001_0_0_000000, 5⟩ = .ok .buildFrame := by decide
theorem test_decode_chkStart : decode ⟨0b00111000_0_0_000000, 5⟩ = .ok .chkStart := by decide
theorem test_decode_chkByte : decode ⟨0b00111001_0_0_000000, 5⟩ = .ok (.chkByte 5) := by decide
theorem test_decode_chkResult : decode ⟨0b00111010_0_0_000000, 5⟩ = .ok .chkResult := by decide

-- 30_encoding.md R51 and the numbering of opcode_table.json: the bits above the command word are the operand
theorem test_decodeTableWord : decodeTableWord 16 0x100B = some (.encU false 12 0) ∧ decodeTableWord 16 0x0400 = none ∧
    decodeTableWord 80 0x3ED100B = some (.encU false 12 0x3ED) ∧ decodeTableWord 16 0x3ED100B = some (.encU false 12 0) := by
  decide

-- V11: value 0, stat 0x44, and nothing but `err` (and the port) changes
theorem test_illegal_words : [0x0400#16, 0x0040, 0x0080, 0x0001, 0x2001, 0x3101, 0x1880, 0x1040, 0xFFFF].all (fun w =>
    after w 0x1234 State.reset = { State.reset with err := true, resp := some ⟨0x44, 0⟩ }) = true := by decide

/-! ## The text form (R56) -/

theorem test_assemble :
    assembleLine "ENC_S 38, -48507297108".toList = some (.encS false 38 0xFFFFFFF4B4BD62AC) ∧
    assembleLine "  ENC_U.N 1, 1   ; not appending".toList = some (.encU true 1 1) ∧
    assembleLine "DEC_SM 5, 0x15 -> 0xFFFFFFFFFFFFFFFB".toList = some (.decSM 5 0x15) ∧
    assembleLine "BUILD_FRAME".toList = some .buildFrame ∧ assembleLine "CLR_FLAGS 7".toList = some (.clrFlags 7) ∧
    assembleLine "ENC_U 65, 1".toList = none ∧ assembleLine "DEC_U.N 5, 1".toList = none ∧
    assembleLine "NOP 1".toList = none := by decide +kernel

/-! ## The commands, one step each -/

-- R111: straight after reset; and the status carried with all four flags set
theorem test_nop : answer 0x0000 0 State.reset = some (0x00, 0) ∧
    answer 0x0000 0 { State.reset with warn := true, ovf := true, err := true, matchFlag := true } = some (0x0F, 0) := by decide

-- R112 (P3: 0x1 with stat 0x01); reading clears nothing
theorem test_rdStatus : answer 0x0100 0 { State.reset with warn := true } = some (0x01, 0x1) ∧
    (after 0x0100 0 { State.reset with warn := true }).warn = true := by decide

-- R113's example: warn = ovf = 1, `CLR_FLAGS 1` -> 0x2; `CLR_FLAGS 0` clears nothing; bit 3 does not touch match
theorem test_clrFlags : answer 0x0200 1 { State.reset with warn := true, ovf := true } = some (0x02, 0x2) ∧
    answer 0x0200 0 { State.reset with warn := true, err := true } = some (0x05, 0x5) ∧
    answer 0x0200 0xF { State.reset with err := true, matchFlag := true } = some (0x08, 0x8) := by decide

-- P5: RD_PLEN of the full buffer
theorem test_rdPlen : answer 0x0300 0 { State.reset with plen := 8184, ovf := true } = some (0x02, 0x1FF8) := by decide

-- V4 (not appending): (cmd, x, stat, field)
theorem test_encU : [(0x1080#16, 0#64, 0x00#8, 0#64), (0x1080, 1, 0x00, 1), (0x1080, 2, 0x11, 0), (0x1087, 255, 0x00, 0xFF),
      (0x1087, 256, 0x11, 0), (0x108B, 4097, 0x11, 1), (0x108B, 0xFFFFFFFFFFFFFFFF, 0x11, 0xFFF),
      (0x10BE, 0x7FFFFFFFFFFFFFFF, 0x00, 0x7FFFFFFFFFFFFFFF), (0x10BE, 0x8000000000000000, 0x11, 0),
      (0x10BF, 0xFFFFFFFFFFFFFFFF, 0x00, 0xFFFFFFFFFFFFFFFF)].all (fun v =>
    answer v.1 v.2.1 State.reset = some (v.2.2.1, v.2.2.2) ∧ (after v.1 v.2.1 State.reset).plen = 0) = true := by decide

-- R68's example `ENC_U 12, 1005`; P5 at the full buffer: refused (0x22), not appending (0x02)
theorem test_encU_append :
    (after 0x100B 1005 State.reset).pbuf =
      [false, false, true, true, true, true, true, false, true, true, false, true] ∧
    answer 0x1000 1 { State.reset with plen := 8184 } = some (0x22, 1) ∧
    (after 0x1000 1 { State.reset with plen := 8184 }).plen = 8184 ∧
    answer 0x1080 1 { State.reset with plen := 8184, ovf := true } = some (0x02, 1) ∧
    answer 0x1007 256 { State.reset with plen := 8177 } = some (0x33, 0) := by decide

-- V5 (not appending)
theorem test_encS : [(0x1180#16, -1#64, 0x00#8, 1#64), (0x1180, 1, 0x11, 1), (0x1187, 127, 0x00, 0x7F), (0x1187, -128, 0x00, 0x80),
      (0x1187, 128, 0x11, 0x80), (0x1187, -129, 0x11, 0x7F), (0x11A5, -48507297108, 0x00, 0x34B4BD62AC),
      (0x11A5, -137438953473, 0x11, 0x1FFFFFFFFF), (0x11BE, 0x8000000000000000, 0x11, 0),
      (0x11BF, 0x8000000000000000, 0x00, 0x8000000000000000)].all (fun v =>
    answer v.1 v.2.1 State.reset = some (v.2.2.1, v.2.2.2)) = true := by decide

-- P1: plen after the ECEF-Y field
theorem test_encS_append : (after 0x1125 0xFFFFFFF4B4BD62AC { State.reset with plen := 74 }).plen = 112 := by decide

-- V6 (not appending)
theorem test_encSM : [(0x1280#16, 0#64, 0x00#8, 0#64), (0x1280, 1, 0x11, 0), (0x1280, -1, 0x11, 1), (0x1281, -2, 0x11, 2),
      (0x1284, -5, 0x00, 0x15), (0x1284, 15, 0x00, 0x0F), (0x1284, 16, 0x11, 0), (0x1284, -17, 0x11, 0x11),
      (0x1297, -8388607, 0x00, 0xFFFFFF), (0x129F, -123456789, 0x00, 0x875BCD15),
      (0x12BF, 0x8000000000000001, 0x00, 0xFFFFFFFFFFFFFFFF), (0x12BF, 0x8000000000000000, 0x11, 0x8000000000000000)].all (fun v =>
    answer v.1 v.2.1 State.reset = some (v.2.2.1, v.2.2.2)) = true := by decide

-- P3: the second encode of the program
theorem test_encSM_append : answer 0x1204 0xFFFFFFFFFFFFFFF0 (withPayload [true, false, true, false, true]) = some (0x11, 0x10) ∧
    (after 0x1204 0xFFFFFFFFFFFFFFF0 (withPayload [true, false, true, false, true])).pbuf =
      [true, false, true, false, true, true, false, false, false, false] := by decide

-- V4: bits above W are ignored
theorem test_decU : answer 0x180B 0xFFFFF3ED State.reset = some (0x00, 0x3ED) ∧ answer 0x183F 0xFFFFFFFFFFFFFFFF State.reset =
    some (0x00, 0xFFFFFFFFFFFFFFFF) := by decide

-- V5
theorem test_decS : answer 0x1925 0x34B4BD62AC State.reset = some (0x00, 0xFFFFFFF4B4BD62AC) ∧
    answer 0x190B 0xBED State.reset = some (0x00, 0xFFFFFFFFFFFFFBED) ∧ answer 0x190B 0xFFFFF3ED State.reset = some (0x00, 0x3ED) ∧
    answer 0x1900 1 State.reset = some (0x00, 0xFFFFFFFFFFFFFFFF) := by decide

-- V6, R73's examples
theorem test_decSM : answer 0x1A04 0x15 State.reset = some (0x00, 0xFFFFFFFFFFFFFFFB) ∧ answer 0x1A04 0x10 State.reset = some (0x00, 0) ∧
    answer 0x1A04 0xFF5 State.reset = some (0x00, 0xFFFFFFFFFFFFFFFB) ∧ answer 0x1A00 1 State.reset = some (0x00, 0) ∧
    answer 0x1A3F 0x8000000000000000 State.reset = some (0x00, 0) := by decide

-- R87
theorem test_crcInit : (after 0x2000 0 { State.reset with crc := 0x2024DA, rcrc := 0x123456 }).crc = 0 ∧
    (after 0x2000 0 { State.reset with crc := 0x2024DA, rcrc := 0x123456 }).rcrc = 0x123456 := by decide

-- P4: from 0 and from the CRC a build left
theorem test_crcByte : answer 0x2100 0x31 State.reset = some (0x00, 0x4FD39B) ∧
    answer 0x2100 0xFF33 { State.reset with crc := 0x2024DA } = some (0x00, 0xED0D7F) := by decide

-- P4
theorem test_crcRd : answer 0x2200 0 { State.reset with crc := 0x2C3045 } = some (0x00, 0x2C3045) := by decide

-- V8: rows 1, 16, 21, 26 of the table
theorem test_crc_table : (List.range 8).map (fun k => crcByte 0 (BitVec.ofNat 8 (8 + k))) =
      [0xA18139, 0x27CDC2, 0x2B5434, 0xAD18CF, 0x3267D8, 0xB42B23, 0xB8B2D5, 0x3EFE2E] ∧
    crcByte 0 0x80 = 0x3347A4 ∧ crcByte 0 0xAF = 0x016863 ∧ crcByte 0 0xD3 = 0xE33309 := by decide +kernel

-- 00_scope.md R5: the taps are the polynomial without its leading term
theorem test_poly : Config.crcPoly25.setWidth 24 = Config.crcPoly ∧ Config.crcPoly25.getLsbD 24 = true := by decide

-- R98: the flags raised while the payload was assembled stay
theorem test_payClr : (after 0x3000 0 { withPayload [true, true] with ovf := true }) =
    { State.reset with ovf := true, resp := some ⟨0x02, 0⟩ } := by decide

-- V9, row `1010 0101`: the bytes, `last` on the final one, the value; payload kept
theorem test_buildFrame :
    let t := after 0x3100 0 (withPayload [true, false, true, false, false, true, false, true])
    t.out = [⟨0xD3, false⟩, ⟨0x00, false⟩, ⟨0x01, false⟩, ⟨0xA5, false⟩, ⟨0x20, false⟩, ⟨0x24, false⟩, ⟨0xDA, true⟩] ∧
    t.crc = 0x2024DA ∧ t.resp = some ⟨0x00, 0x2024DA⟩ ∧ t.plen = 8 := by decide +kernel

-- P5, V9 last row: the header of the largest frame; V9: `1111 1111 1`, padded with seven zeros
theorem test_buildFrame_sizes : payloadBytes 8184 = 1023 ∧ bytesOf (header 1023) = [0xD3, 0x03, 0xFF] ∧
    buildFrame (List.replicate 9 true) = [0xD3, 0x00, 0x02, 0xFF, 0x80, 0xDD, 0x71, 0xCE] := by decide +kernel

-- V1, V2, P1: the reference frame from the thirteen fields
theorem test_reference_frame : buildFrame (v2Fields.flatMap fieldBits) = v1Front ++ [0x36, 0x0B, 0x98] := by decide +kernel

-- R100
theorem test_chkStart : after 0x3800 0 { State.reset with rcrc := 0x29E5F7, hold := 0x360B98, rcnt := 3, matchFlag := true } =
    { State.reset with resp := some ⟨0x00, 0⟩ } := by decide

-- V10: V1's fourth byte (the first one to enter `rcrc`), and its second
theorem test_chkByte :
    let t := after 0x3900 0xFF3E { State.reset with rcnt := 3, hold := 0xD30013, matchFlag := true }
    let u := after 0x3900 0x00 { State.reset with rcnt := 1, hold := 0x0000D3 }
    t.rcnt = 3 ∧ t.hold = 0x00133E ∧ t.rcrc = 0xE33309 ∧ t.matchFlag = true ∧ u.rcnt = 2 ∧ u.hold = 0x00D300 ∧ u.rcrc = 0 := by
  decide

-- P2: match, then the mismatch of the corrupted frame (err stays 0); fewer than three bytes
theorem test_chkResult :
    answer 0x3A00 0 { State.reset with rcnt := 3, rcrc := 0x360B98, hold := 0x360B98 } = some (0x08, 1) ∧
    answer 0x3A00 0 { State.reset with rcnt := 3, rcrc := 0x29E5F7, hold := 0x360B98, matchFlag := true } = some (0x00, 0) ∧
    answer 0x3A00 0 { State.reset with rcnt := 2, matchFlag := true } = some (0x00, 0) := by decide

-- V10, as the function
theorem test_checkFrame : checkFrame [] = false ∧ checkFrame [0, 0] = false ∧ checkFrame [0, 0, 0] = true ∧
    checkFrame [0, 0, 0, 1] = false ∧ checkFrame [0xD2, 0x00, 0x00, 0x47, 0xEA, 0x4B] = false ∧
    checkFrame [0x01, 0x86, 0x4C, 0xFB] = true ∧ checkFrame (v1Front ++ [0x36, 0x0B, 0x98]) = true := by decide +kernel

/-! ## The step, the reset input -/

-- R126: beats already emitted stay, everything else returns to its reset value
theorem test_reset_input : core.run 1 { withPayload [true] with out := [⟨0xD3, false⟩], warn := true, crc := 1, rcnt := 2, pending := [.reset] } =
    .next { State.reset with out := [⟨0xD3, false⟩] } := rfl

-- the command placed by `withFetchWord` is the one the next step executes, from reset
theorem test_withFetchWord : [(0x0000, 0#64), (0x2200, 0), (0x1000, 0), (0x3A00, 0)].all (fun v =>
    (match step (State.reset.withFetchWord 16 v.1) with
      | .next t => t.resp.map Response.value
      | .fault _ => none
      | .refused _ => none) == some v.2) = true := by decide

end Sys2Proof.Tests
end

