-- ==== Sys2Proof/Tests/Witnesses.lean ====
section
/-!
SUPPORT. The hypotheses of the statements can be met: for every statement of Certificates/Slice0/Obligations.lean that has
hypotheses, a witness named after it that meets them together, for each clause and at the ends of its range.
-/

namespace Sys2Proof.Tests

open Sys2Proof.Machine Sys2Proof.Safety

/-- A way to show that two byte sequences differ in exactly one bit, by running through the bits. -/
theorem differ_of (a b : List Byte) (k : Nat) (hl : a.length = b.length)
    (h : (List.range (8 * a.length)).filter (fun i => (bitsOf a)[i]? ≠ (bitsOf b)[i]?) = [k]) : DifferInOneBit a b := by
  have key : ∀ y, y ∈ (List.range (8 * a.length)).filter (fun i => (bitsOf a)[i]? ≠ (bitsOf b)[i]?) ↔ y = k := by
    intro y; rw [h]; simp
  refine ⟨hl, k, ?_, ?_⟩
  · have := (key k).2 rfl
    simpa using (List.mem_filter.1 this).2
  · intro y hy
    refine (key y).1 (List.mem_filter.2 ⟨?_, by simpa using hy⟩)
    by_contra hn
    apply hy
    have ha : (bitsOf a).length ≤ y := by rw [bitsOf_length]; simpa using hn
    have hb : (bitsOf b).length ≤ y := by rw [bitsOf_length, ← hl]; simpa using hn
    rw [List.getElem?_eq_none ha, List.getElem?_eq_none hb]

/-- A state whose one pending action is this command. -/
def issued (i : Instr) (s : State) : State := { s with pending := [.command (encode i)] }

/-- The largest payload there is. -/
def largest : State := withPayload (List.replicate 8184 true)

theorem largest_wf : Memory.wf largest.pbuf largest.plen = true := by
  simp only [largest, withPayload, Memory.wf, List.length_replicate]; decide

theorem witness_EncodedCommandDecodesToItself : wellFormed (.encU true 1 5) = true ∧ wellFormed (.decSM 64 5) = true := by decide

theorem witness_DecodedCommandEncodesToItsWord :
    decode ⟨0x10BF, 5⟩ = .ok (.encU true 64 5) ∧ decode ⟨0x1080, 5⟩ = .ok (.encU true 1 5) ∧
    decode ⟨0x1880, 5⟩ = .error .naNotZero := by decide

theorem witness_LegalWordsAreTheTableRows :
    decode ⟨0x1A3F, 5⟩ = .ok (.decSM 64 5) ∧
    (⟨.decSM, 0x1A00, 0xFFC0⟩ ∈ opcodeRows ∧ (0x1A3F#16 &&& 0xFFC0#16) = 0x1A00#16) := by decide

theorem witness_IllegalCommandSetsErrOnly :
    (∀ r ∈ opcodeRows, (0x0040#16 &&& r.mask) ≠ r.pattern) ∧ decode ⟨0x0040, 5⟩ = .error .reservedBitSet := by decide

theorem witness_StepRunsDecodedCommand :
    ((onPort 0x2100 0xD3 State.reset).pending = .command ⟨0x2100, 0xD3⟩ :: [] ∧ decode ⟨0x2100, 0xD3⟩ = .ok (.crcByte 0xD3)) ∧
    ((onPort 0x1880 5 State.reset).pending = .command ⟨0x1880, 5⟩ :: [] ∧ decode ⟨0x1880, 5⟩ = .error .naNotZero) ∧
    ({ State.reset with pending := [.reset] } : State).pending = .reset :: [] := by
  decide

theorem witness_IdleBlockKeepsItsState : State.reset.pending = [] := rfl

theorem witness_ResetRestoresEveryElementButOut :
    ({ largest with pending := [.reset], rcnt := 3 } : State).pending = .reset :: [] := rfl

theorem witness_EveryCommandCompletesWithAResponse :
    step (onPort 0xFFFF 0 State.reset) = .next { State.reset with err := true, resp := some ⟨0x44, 0⟩ } ∧
    (onPort 0xFFFF 0 State.reset).pending = .command ⟨0xFFFF, 0⟩ :: [] := ⟨rfl, rfl⟩

theorem witness_ResponseStatusReportsThisCommand :
    exec .nop State.reset = .next { State.reset with resp := some ⟨0, 0⟩ } ∧
    illegalCommand .reservedBitSet State.reset = .next { State.reset with err := true, resp := some ⟨0x44, 0⟩ } := ⟨rfl, rfl⟩

theorem witness_StickyFlagsAreSetAndClearedAsStated :
    exec (.encU false 1 1) { State.reset with plen := 8184 } =
      .next { State.reset with plen := 8184, ovf := true, resp := some ⟨0x22, 1⟩ } ∧
    appendRefused (.encU false 1 1) { State.reset with plen := 8184 } = true ∧
    illegalCommand .widthNotZero State.reset = .next { State.reset with err := true, resp := some ⟨0x44, 0⟩ } :=
  ⟨rfl, by decide, rfl⟩

theorem witness_FlagsDoNotSteerCommands :
    exec .chkStart State.reset = .next { State.reset with resp := some ⟨0, 0⟩ } ∧ Instr.chkStart ≠ .rdStatus ∧
    ∀ d, Instr.chkStart ≠ .clrFlags d := ⟨rfl, by decide, by simp⟩

/-- Both clauses, where they meet: a field of 64 bits fits at 8120 bits, and one bit does not at 8184. -/
theorem witness_PbufAppendAllOrNothing :
    (let s := withPayload (List.replicate 8120 true);
      WidthOk 64 ∧ Memory.wf s.pbuf s.plen = true ∧ s.plen.toNat + 64 ≤ 8184) ∧
    (WidthOk 1 ∧ Memory.wf largest.pbuf largest.plen = true ∧ 8184 < largest.plen.toNat + 1) := by
  refine ⟨⟨by decide, 
      by simp only [withPayload, Memory.wf, List.length_replicate]; decide,
      by simp only [withPayload, List.length_replicate]; decide⟩, by decide, largest_wf,
    by simp only [largest, withPayload, List.length_replicate]; decide⟩

theorem witness_EncUResult : WidthOk 1 ∧ WidthOk 64 := by decide
theorem witness_EncSResult : WidthOk 1 ∧ WidthOk 64 := by decide
theorem witness_EncSMResult : WidthOk 1 ∧ WidthOk 64 := by decide
theorem witness_DecUResult : WidthOk 1 ∧ WidthOk 64 := by decide
theorem witness_DecSResult : WidthOk 1 ∧ WidthOk 64 := by decide
theorem witness_DecSMResult : WidthOk 1 ∧ WidthOk 64 := by decide

/-- The three cases: unchanged, to 0, forward by 64. -/
theorem witness_PlenMovesByWholeFields :
    step (issued .nop State.reset) = .next (after 0x0000 0 State.reset) ∧
    step (issued .payClr (withPayload [true])) = .next (after 0x3000 0 (withPayload [true])) ∧
    step (issued (.encU false 64 1) { State.reset with plen := 8120 }) = .next (after 0x103F 1 { State.reset with plen := 8120 }) ∧
    (after 0x103F 1 { State.reset with plen := 8120 }).plen = 8184 := ⟨rfl, rfl, rfl, rfl⟩

/-- Each clause at the ends of its range, for the smallest and the largest width. -/
theorem witness_FieldRoundTrips :
    (WidthOk 1 ∧ (1 : Nat) ≤ 2 ^ 1 - 1 ∧ -((2 ^ (1 - 1) : Nat) : Int) ≤ -1 ∧ (-1 : Int) ≤ ((2 ^ (1 - 1) : Nat) : Int) - 1 ∧
      (0 : Int).natAbs ≤ 2 ^ (1 - 1) - 1 ∧ 0#1 ≠ BitVec.ofNat 1 (2 ^ (1 - 1))) ∧
    (WidthOk 64 ∧ (2 ^ 64 - 1 : Nat) ≤ 2 ^ 64 - 1 ∧ -((2 ^ (64 - 1) : Nat) : Int) ≤ -2 ^ 63 ∧
      (-2 ^ 63 : Int) ≤ ((2 ^ (64 - 1) : Nat) : Int) - 1 ∧ (-(2 ^ 63 - 1) : Int).natAbs ≤ 2 ^ (64 - 1) - 1 ∧
      -1#64 ≠ BitVec.ofNat 64 (2 ^ (64 - 1))) ∧
    (WidthOk 5 ∧ exec (encodeInstr .sm true 5 (-5)) State.reset = .next { State.reset with resp := some ⟨0x00, 0x15⟩ } ∧
      (⟨0x00, 0x15⟩ : Response).stat.getLsbD 4 = false) := by
  refine ⟨by decide, by decide, by decide, rfl, rfl⟩

/-- Each clause just outside the range. -/
theorem witness_OutOfRangeFieldsWrapAndWarn :
    (WidthOk 1 ∧ 2 ^ 1 ≤ (2 : Nat)) ∧ (WidthOk 8 ∧ ((-129 : Int) < -((2 ^ (8 - 1) : Nat) : Int) ∨ ((2 ^ (8 - 1) : Nat) : Int) ≤ -129)) ∧
    (WidthOk 8 ∧ ((128 : Int) < -((2 ^ (8 - 1) : Nat) : Int) ∨ ((2 ^ (8 - 1) : Nat) : Int) ≤ 128)) ∧
    (WidthOk 64 ∧ 2 ^ (64 - 1) ≤ (-2 ^ 63 : Int).natAbs) ∧
    outOfRange (encodeInstr .u false 12 4096) = true ∧ outOfRange (encodeInstr .s false 64 0x8000000000000000) = false ∧
    outOfRange (encodeInstr .sm true 64 0x8000000000000000) = true := by decide

theorem witness_UnusedOperandBitsAreIgnored :
    (WidthOk 5 ∧ ∀ i < 5, (0xFF5#64).getLsbD i = (0x15#64).getLsbD i) ∧ (∀ i < 8, (0x1D3#64).getLsbD i = (0xD3#64).getLsbD i) ∧
    (∀ i < 3, (0xF#64).getLsbD i = (7#64).getLsbD i) := by decide

theorem witness_CrcEqualForms : 8 ∣ (str 0xD3#8).length ∧ 8 ∣ ([] : List Bool).length := by decide

theorem witness_CrcLaws : ([0x01, 0x80] : List Byte).length = ([0xFF, 0x00] : List Byte).length := rfl

theorem witness_CrcSeparatesSingleBitErrors : DifferInOneBit [0x01, 0x80] [0x01, 0x00] :=
  differ_of _ _ 8 rfl (by decide)

/-- The first bit of the first byte and the last bit of the last. -/
theorem witness_WireOrderOfBitsAndBytes :
    0 < 64 ∧ 63 < 64 ∧ 8 ∣ (str 0xD3#8).length ∧ 7 < 8 ∧ 8 * 0 + 7 < (str 0xD3#8).length := by decide

theorem witness_FrameLayout : ([] : List Bool).length ≤ 8184 ∧ (List.replicate 8184 true).length ≤ 8184 := by
  simp only [List.length_replicate]; decide

theorem witness_FrameSizes :
    Memory.wf State.reset.pbuf State.reset.plen = true ∧ Memory.wf largest.pbuf largest.plen = true := ⟨by decide, largest_wf⟩

theorem witness_BuiltFramePassesCheck : ([] : List Bool).length ≤ 8184 ∧ (List.replicate 8184 true).length ≤ 8184 := by
  simp only [List.length_replicate]; decide

/-- A flip in the preamble and one in the CRC. -/
theorem witness_FlippedFrameFailsCheck :
    ([] : List Bool).length ≤ 8184 ∧ DifferInOneBit (buildFrame []) [0xD2, 0x00, 0x00, 0x47, 0xEA, 0x4B] ∧
    DifferInOneBit (buildFrame []) [0xD3, 0x00, 0x00, 0x47, 0xEA, 0x4A] := by
  have h : buildFrame [] = [0xD3, 0x00, 0x00, 0x47, 0xEA, 0x4B] := by decide +kernel
  rw [h]
  exact ⟨by decide, differ_of _ _ 7 rfl (by decide +kernel), differ_of _ _ 47 rfl (by decide +kernel)⟩

theorem witness_MessageNumberInBytesThreeAndFour :
    12 ≤ (str 0x3ED#12).length ∧ (str 0x3ED#12).length ≤ 8184 ∧ (List.replicate 8172 true).length + 12 ≤ 8184 := by
  simp only [List.length_replicate]; decide

/-- The empty message, the reference message and the largest. -/
theorem witness_FrameCommandsBuildTheFrame :
    ((∀ f ∈ ([] : List FieldSpec), WidthOk f.width) ∧ (([] : List FieldSpec).map FieldSpec.width).sum ≤ 8184) ∧
    ((∀ f ∈ v2Fields, WidthOk f.width) ∧ (v2Fields.map FieldSpec.width).sum = 152) ∧
    (let full := ⟨.u, 56, 0⟩ :: List.replicate 127 (⟨.u, 64, 0xFFFFFFFFFFFFFFFF⟩ : FieldSpec);
      (∀ f ∈ full, WidthOk f.width) ∧ (full.map FieldSpec.width).sum = 8184) := by
  refine ⟨by simp, by decide, ?_, by simp⟩
  simp only [List.mem_cons, List.mem_replicate]
  rintro f (rfl | ⟨-, rfl⟩) <;> decide

/-- With no byte, and with more than three, given. -/
theorem witness_CheckerLaw :
    CheckerHolds [] State.reset ∧
    CheckerHolds [0xD3, 0x00, 0x00, 0x47] { State.reset with rcnt := 3, hold := 0x000047, rcrc := 0xE33309 } ∧
    isChecker .nop = false ∧ exec .nop State.reset = .next { State.reset with resp := some ⟨0, 0⟩ } :=
  ⟨by unfold CheckerHolds; decide, by unfold CheckerHolds; decide +kernel, rfl, rfl⟩

theorem witness_EmittedFrameChecksAndFlippedFrameDoesNot :
    Memory.wf State.reset.pbuf State.reset.plen = true ∧ (∃ t, exec .buildFrame State.reset = .next t) ∧
    Memory.wf largest.pbuf largest.plen = true ∧
    DifferInOneBit ((beatsOf (buildFrame [])).map Beat.byte) [0xD2, 0x00, 0x00, 0x47, 0xEA, 0x4B] := by
  have h : buildFrame [] = [0xD3, 0x00, 0x00, 0x47, 0xEA, 0x4B] := by decide +kernel
  rw [beatsOf_bytes, h]
  exact ⟨by decide, ⟨_, rfl⟩, largest_wf, differ_of _ _ 7 rfl (by decide +kernel)⟩

/-- A state with a frame in `out` and one more about to be built. -/
theorem witness_EveryStepKeepsTheInvariant :
    ∃ s t : State, Inv s ∧ step s = .next t ∧ s.out.length = 6 ∧ s.pending = [.command (encode .buildFrame)] := by
  refine ⟨issued .buildFrame { State.reset with out := beatsOf (buildFrame []) }, _, ⟨by decide, by decide, by decide, ?_⟩, rfl, ?_, rfl⟩
  · refine ⟨[beatsOf (buildFrame [])], by simp [issued], ?_⟩
    intro fr hfr
    rw [List.mem_singleton] at hfr
    subst hfr
    refine ⟨⟨[], by simp, by simp⟩, ?_⟩
    have h : buildFrame [] = [0xD3, 0x00, 0x00, 0x47, 0xEA] ++ [0x4B] := by decide +kernel
    rw [h, beatsOf_snoc]
    exact ⟨_, _, rfl, by simp⟩
  · simp [issued, buildFrame_length]

/-- For each element, a command that changes it. -/
theorem witness_OnlyTheListedWritersWrite :
    (after 0x2100 0xD3 State.reset).crc ≠ State.reset.crc ∧ (after 0x1000 1 State.reset).pbuf ≠ State.reset.pbuf ∧
    (after 0x1000 1 State.reset).plen ≠ State.reset.plen ∧ (after 0x3100 0 State.reset).out ≠ State.reset.out ∧
    (after 0x1000 2 State.reset).warn ≠ State.reset.warn ∧
    (after 0x1000 0 { State.reset with plen := 8184 }).ovf ≠ State.reset.ovf ∧
    (after 0x0200 4 { State.reset with err := true }).err ≠ true ∧
    (after 0x3A00 0 { State.reset with rcnt := 3 }).matchFlag ≠ State.reset.matchFlag ∧
    (after 0x3900 1 { State.reset with rcnt := 3, hold := 0xD30000 }).rcrc ≠ State.reset.rcrc ∧
    (after 0x3900 1 State.reset).hold ≠ State.reset.hold ∧ (after 0x3900 1 State.reset).rcnt ≠ State.reset.rcnt ∧
    exec .nop State.reset = .next { State.reset with resp := some ⟨0, 0⟩ } := by
  refine ⟨by decide, by decide, by decide, by decide +kernel, by decide, by decide, by decide, by decide, by decide, by decide, by decide, rfl⟩

theorem witness_OutGrowsByWholeFramesOnly :
    Memory.wf State.reset.pbuf State.reset.plen = true ∧ ∃ t, step (issued .buildFrame State.reset) = .next t :=
  ⟨by decide, _, rfl⟩

theorem witness_ReadingCommandsHaveNoSideEffect :
    (isReading (.encU true 8 255) = true ∧ ∃ t, exec (.encU true 8 255) State.reset = .next t) ∧
    (∃ t u, exec .chkResult State.reset = .next t ∧ exec .chkResult t = .next u) ∧
    (∃ t u, exec .buildFrame State.reset = .next t ∧ exec .buildFrame t = .next u) :=
  ⟨⟨by decide, _, rfl⟩, ⟨_, _, rfl, rfl⟩, _, _, rfl, rfl⟩

theorem witness_PortsAreNotRead : ∃ t, exec (.crcByte 0xD3) State.reset = .next t := ⟨_, rfl⟩

theorem witness_CheckerCommutesWithTheRest :
    isChecker (.chkByte 0xD3) = true ∧ isChecker .buildFrame = false ∧
    ∃ a ab b ba, exec (.chkByte 0xD3) State.reset = .next a ∧ exec .buildFrame a = .next ab ∧
      exec .buildFrame State.reset = .next b ∧ exec (.chkByte 0xD3) b = .next ba :=
  ⟨rfl, rfl, _, _, _, _, rfl, rfl, rfl, rfl⟩

end Sys2Proof.Tests
end

section
/-!
PROOFS. The sticky flags `warn`, `ovf` and `err` (spec 10_state.md R20 to R22): what every command does to them. The commands fall into
three kinds: the encodes, which may raise `warn` and `ovf`; `CLR_FLAGS`, which clears; and the rest, which keep all three.
-/

namespace Sys2Proof.Proofs

open Sys2Proof.Machine Sys2Proof.Safety

/-! ## The columns of `Safety` against the machine's own checks -/

/-- The range check of `enc_u` (40_bitfield.md R61) and the RangeWarning column of R68. -/
theorem outOfRange_encU (na : Bool) (w : Nat) (d : Word) :
    outOfRange (.encU na w d) = !(encU (operandUnsigned d) w).inr := by
  have hpos : 0 < 2 ^ w := Nat.two_pow_pos w
  rw [outOfRange, encU, operandUnsigned, ← decide_not, decide_eq_decide]
  omega

/-- The range check of `enc_s` (R62) and the RangeWarning column of R69. -/
theorem outOfRange_encS (na : Bool) (w : Nat) (d : Word) :
    outOfRange (.encS na w d) = !(encS (operandSigned d) w).inr := by
  rw [outOfRange, encS, operandSigned, ← decide_not, decide_eq_decide]
  omega

/-- The range check of `enc_sm` (R63) and the RangeWarning column of R70. -/
theorem outOfRange_encSM (na : Bool) (w : Nat) (d : Word) :
    outOfRange (.encSM na w d) = !(encSM (operandSigned d) w).inr := by
  have hpos : 0 < 2 ^ (w - 1) := Nat.two_pow_pos (w - 1)
  rw [outOfRange, encSM, operandSigned, ← decide_not, decide_eq_decide]
  omega

/-- The fit test of `PbufAppend` (20_memory.md R32) and the PayloadOverflow column of R68 to R70. -/
theorem not_appendFits (w : Nat) (s : State) : (!appendFits w s) = decide (8184 < s.plen.toNat + w) := by
  rw [appendFits, ← decide_not, decide_eq_decide, Nat.not_le]

/-! ## The commands that keep the three flags -/

/-- The sticky flags are in `t` what they are in `s`. -/
def SameStickyFlags (s t : State) : Prop := t.warn = s.warn ∧ t.ovf = s.ovf ∧ t.err = s.err

/-- The response is no flag: a command whose writes keep the flags keeps them. -/
theorem sameStickyFlags_of_complete {events : List Event} {v : Word} {s u t : State}
    (h : complete events v u = .next t) (hu : SameStickyFlags s u) : SameStickyFlags s t := by
  obtain rfl := complete_next_iff.mp h
  exact hu

theorem execBuildFrame_sameStickyFlags {s t : State} (h : execBuildFrame s = .next t) : SameStickyFlags s t := by
  refine sameStickyFlags_of_complete h ?_
  rw [emitAll_eq]
  exact ⟨rfl, rfl, rfl⟩

/-- Either verdict writes `match` alone. -/
theorem execChkResult_sameStickyFlags {s t : State} (h : execChkResult s = .next t) : SameStickyFlags s t := by
  unfold execChkResult at h
  split at h
  · exact sameStickyFlags_of_complete h ⟨rfl, rfl, rfl⟩
  · exact sameStickyFlags_of_complete h ⟨rfl, rfl, rfl⟩

/-! ## The rule of R20 to R22 for one command -/

/-- What command `i`, from `s` to `t`, owes the sticky flags; a refused append also owes the buffer. -/
def StickyRule (i : Instr) (s t : State) : Prop :=
  t.warn = ((s.warn && !clearsFlag i 0) || outOfRange i) ∧
  t.ovf = ((s.ovf && !clearsFlag i 1) || appendRefused i s) ∧
  t.err = (s.err && !clearsFlag i 2) ∧
  (appendRefused i s = true → t.pbuf = s.pbuf ∧ t.plen = s.plen)

/-- A command that raises nothing and clears nothing need only keep the flags. -/
theorem stickyRule_of_same {i : Instr} {s t : State} (hrange : outOfRange i = false)
    (hrefused : appendRefused i s = false) (hclear : ∀ k, clearsFlag i k = false) (h : SameStickyFlags s t) :
    StickyRule i s t := by
  obtain ⟨hwarn, hovf, herr⟩ := h
  simp [StickyRule, hrange, hrefused, hclear, hwarn, hovf, herr]

/-- The three encodes share one effect: `warn` by the range check, `ovf` by the refused append, which leaves the buffer. -/
theorem stickyRule_of_encode {i : Instr} {w : Nat} {e : Encoded w} {na : Bool} {s t : State}
    (hrange : outOfRange i = !e.inr) (hrefused : appendRefused i s = (!na && !appendFits w s))
    (hclear : ∀ k, clearsFlag i k = false) (h : encodeAndAppend e na s = .next t) : StickyRule i s t := by
  rw [encodeAndAppend_eq] at h
  cases h
  refine ⟨?_, ?_, ?_, fun hr => ?_⟩
  · simp [hclear, hrange]
  · simp [hclear, hrefused]
  · simp [hclear]
  · obtain ⟨_, hfull⟩ : na = false ∧ appendFits w s = false := by simpa [hrefused] using hr
    simp [hfull]

/-- `CLR_FLAGS` (43_control.md R113): the mask is the low three bits of the operand, and nothing is raised. -/
theorem clrFlags_stickyRule {d : Word} {s t : State} (h : execClrFlags d s = .next t) :
    StickyRule (.clrFlags d) s t := by
  obtain rfl := complete_next_iff.mp h
  simp [StickyRule, respond, clearsFlag, outOfRange, appendRefused]

/-- The three kinds of command, case by case. -/
theorem exec_stickyRule {i : Instr} {s t : State} (h : exec i s = .next t) : StickyRule i s t := by
  cases i with
  | clrFlags d => exact clrFlags_stickyRule h
  | encU na w d =>
    exact stickyRule_of_encode (outOfRange_encU na w d) (by rw [not_appendFits]; rfl) (fun _ => rfl) h
  | encS na w d =>
    exact stickyRule_of_encode (outOfRange_encS na w d) (by rw [not_appendFits]; rfl) (fun _ => rfl) h
  | encSM na w d =>
    exact stickyRule_of_encode (outOfRange_encSM na w d) (by rw [not_appendFits]; rfl) (fun _ => rfl) h
  | buildFrame => exact stickyRule_of_same rfl rfl (fun _ => rfl) (execBuildFrame_sameStickyFlags h)
  | chkResult => exact stickyRule_of_same rfl rfl (fun _ => rfl) (execChkResult_sameStickyFlags h)
  | nop | rdStatus | rdPlen | decU | decS | decSM | crcInit | crcByte | crcRd | payClr | chkStart | chkByte =>
    exact stickyRule_of_same rfl rfl (fun _ => rfl) (sameStickyFlags_of_complete h ⟨rfl, rfl, rfl⟩)

/-- An illegal command changes `err` and the response, nothing else. -/
theorem illegalCommand_frame {why : DecodeError} {s t : State} (h : illegalCommand why s = .next t) :
    t = { s with err := true, resp := t.resp } := by
  rw [illegalCommand_eq] at h
  cases h
  rfl

/-- Settles O12: the rule holds of each command, of the illegal one, and of the reset input. -/
theorem stickyFlagsAreSetAndClearedAsStated : Obligations.StickyFlagsAreSetAndClearedAsStated :=
  ⟨fun _ _ _ h => exec_stickyRule h, fun _ _ _ h => illegalCommand_frame h,
    fun s => ⟨assertReset_warn s, assertReset_ovf s, assertReset_err s⟩, rfl, rfl, rfl⟩

end Sys2Proof.Proofs
end

section
/-!
PROOFS. `PbufAppend` (spec 20_memory.md R32): where a field that fits lands in the payload buffer, and what stays.
-/

namespace Sys2Proof.Proofs

open Sys2Proof.Machine

/-- The field's bits lie behind the old ones, most significant first. -/
theorem pushField_pbuf_new {w : Nat} (f : BitVec w) (s : State) (h : s.pbuf.length = s.plen.toNat) {i : Nat}
    (hi : i < w) : (pushField f s).pbuf[s.plen.toNat + i]? = some (f.getLsbD (w - 1 - i)) := by
  have hstr : i < (str f).length := by rwa [str_length]
  rw [pushField_pbuf, ← h, List.getElem?_append_right (Nat.le_add_right _ _), Nat.add_sub_cancel_left,
    List.getElem?_eq_getElem hstr, str_getElem]

/-- The bits already in the buffer stay. -/
theorem pushField_pbuf_old {w : Nat} (f : BitVec w) (s : State) {j : Nat} (hj : j < s.pbuf.length) :
    (pushField f s).pbuf[j]? = s.pbuf[j]? := by
  rw [pushField_pbuf, List.getElem?_append_left hj]

/-- A total within the buffer's 8184 bits fits the 14 bits of `plen`. -/
theorem pushField_plen_toNat {w : Nat} (f : BitVec w) (s : State) (hfit : s.plen.toNat + w ≤ 8184) :
    (pushField f s).plen.toNat = s.plen.toNat + w := by
  rw [pushField_plen, BitVec.toNat_ofNat]
  omega

/-- Settles O18: the two outcomes of `pbufAppend_cases`, each against its own clause. -/
theorem pbufAppendAllOrNothing : Obligations.PbufAppendAllOrNothing := by
  intro w f s _ hwf
  obtain ⟨hlen, _⟩ := (wf_iff _ _).mp hwf
  obtain ⟨hfit, heq⟩ | ⟨hfull, heq⟩ := pbufAppend_cases f s
  · refine ⟨fun _ => ⟨pushField f s, heq, rfl, pushField_plen_toNat f s hfit, ?_, ?_, ?_⟩, fun h => absurd h (by omega)⟩
    · rw [pushField_pbuf, List.length_append, str_length, hlen]
    · exact fun i hi => pushField_pbuf_new f s hlen hi
    · exact fun j hj => pushField_pbuf_old f s (hlen ▸ hj)
  · exact ⟨fun h => absurd h (by omega), fun _ => heq⟩

end Sys2Proof.Proofs
end

section
/-!
PROOFS. The decoder against the opcode map (spec 30_encoding.md R47 to R54). `LegalAs o w` says field by field that `w` is a word of the
command `o`; it is what a row of R53 tests by mask and match, and what `decode` tests in the order of R50.
-/

namespace Sys2Proof.Proofs

open Sys2Proof.Machine Sys2Proof.Safety

/-! ## The opcodes -/

theorem mem_allOps (o : Op) : o ∈ allOps := by cases o <;> decide

/-- No opcode stands in two rows: looking up the code of `o` finds `o`. -/
@[simp] theorem opOfCode_code (o : Op) : opOfCode o.code = some o := by cases o <;> rfl

theorem code_injective {o o' : Op} (h : o.code = o'.code) : o = o' := by
  simpa [h] using (opOfCode_code o).symm

theorem code_of_opOfCode {b : BitVec 8} {o : Op} (h : opOfCode b = some o) : o.code = b := by
  simpa using List.find?_some h

@[simp] theorem opOf_assembleOp (o : Op) (na : Bool) (width : Nat) (data : Word) :
    opOf (assembleOp o na width data) = o := by cases o <;> rfl

/-! ## The words of one command -/

/-- R47, R48: `w` has the opcode of `o`, bit 6 is 0, and of `na` and `wm1` only what the class of `o` uses may be other than 0. -/
structure LegalAs (o : Op) (w : CmdWord) : Prop where
  opcode : opField w = o.code
  reserved : reservedField w = false
  na : naField w = true → o.formatClass.usesNa = true
  width : wm1Field w ≠ 0#6 → o.formatClass.usesWidth = true

theorem LegalAs.unique {o o' : Op} {w : CmdWord} (h : LegalAs o w) (h' : LegalAs o' w) : o = o' :=
  code_injective (h.opcode.symm.trans h'.opcode)

/-! ## The rows of R53 -/

/-- The bits below the opcode that R48 wants 0 in each class. -/
def mustBeZero (k : FormatClass) : BitVec 8 :=
  match k with
  | .z => 0xFF#8
  | .d => 0xFF#8
  | .wd => 0xC0#8
  | .we => 0x40#8

/-- The row of `o`: the mask covers the opcode and every must-be-zero bit. -/
def rowOf (o : Op) : OpcodeRow := ⟨o, o.code ++ 0#8, BitVec.allOnes 8 ++ mustBeZero o.formatClass⟩

theorem opcodeRows_eq_map_rowOf : opcodeRows = allOps.map rowOf := by decide

theorem mem_opcodeRows_iff {r : OpcodeRow} : r ∈ opcodeRows ↔ ∃ o, rowOf o = r := by
  simp [opcodeRows_eq_map_rowOf, mem_allOps]

/-- What it means, bit by bit, that a low byte has no must-be-zero bit set. -/
theorem and_mustBeZero_eq_zero_iff (k : FormatClass) (b : BitVec 8) :
    b &&& mustBeZero k = 0#8 ↔
      b.getLsbD 6 = false ∧ (b.getLsbD 7 = true → k.usesNa = true) ∧ (b.extractLsb' 0 6 ≠ 0#6 → k.usesWidth = true) := by
  cases k <;> revert b <;> decide

/-- Both parts of an appended word can be read back. -/
theorem append_eq_append_iff {m n : Nat} {a a' : BitVec m} {b b' : BitVec n} : a ++ b = a' ++ b' ↔ a = a' ∧ b = b' := by
  refine ⟨fun h => ⟨?_, ?_⟩, fun ⟨ha, hb⟩ => by rw [ha, hb]⟩
  · simpa only [BitVec.extractLsb'_append_eq_left] using congrArg (BitVec.extractLsb' n m) h
  · simpa only [BitVec.extractLsb'_append_eq_right] using congrArg (BitVec.extractLsb' 0 n) h

/-- A word selects a row exactly when its opcode is the row's and its low byte has no must-be-zero bit set. -/
theorem and_rowMask_eq_pattern_iff (w : CmdWord) (o : Op) :
    w &&& (rowOf o).mask = (rowOf o).pattern ↔
      opField w = o.code ∧ w.extractLsb' 0 8 &&& mustBeZero o.formatClass = 0#8 := by
  have hw : opField w ++ w.extractLsb' 0 8 = w := BitVec.extractLsb'_append_extractLsb'
  have hand : w &&& (rowOf o).mask = opField w ++ (w.extractLsb' 0 8 &&& mustBeZero o.formatClass) := by
    conv_lhs => rw [← hw]
    rw [rowOf, BitVec.and_append, BitVec.and_allOnes]
  rw [hand]
  exact append_eq_append_iff

theorem selects_rowOf_iff (w : CmdWord) (o : Op) :
    w &&& (rowOf o).mask = (rowOf o).pattern ↔ LegalAs o w := by
  have hres : (w.extractLsb' 0 8).getLsbD 6 = reservedField w := by simp [reservedField]
  have hna : (w.extractLsb' 0 8).getLsbD 7 = naField w := by simp [naField]
  have hwm1 : (w.extractLsb' 0 8).extractLsb' 0 6 = wm1Field w := by simp [wm1Field]
  rw [and_rowMask_eq_pattern_iff, and_mustBeZero_eq_zero_iff, hres, hna, hwm1]
  exact ⟨fun ⟨h1, h2, h3, h4⟩ => ⟨h1, h2, h3, h4⟩, fun ⟨h1, h2, h3, h4⟩ => ⟨h1, h2, h3, h4⟩⟩

/-! ## The decoder -/

/-- The decoder's three tests after the opcode all pass on a legal word. -/
theorem decode_of_legalAs {c : Command} {o : Op} (h : LegalAs o c.cmd) :
    decode c = .ok (assembleOp o (naField c.cmd) (widthOfField (wm1Field c.cmd)) c.data) := by
  obtain ⟨hop, hres, hna, hwidth⟩ := h
  have hna' : ¬(naField c.cmd && !o.formatClass.usesNa) = true := by simpa using hna
  have hwidth' : ¬(wm1Field c.cmd != 0#6 && !o.formatClass.usesWidth) = true := by simpa using hwidth
  simp only [decode, hop, opOfCode_code, hres, hna', hwidth', Bool.false_eq_true, if_false]

/-- A word the decoder answers has passed them. -/
theorem legalAs_of_decode {c : Command} {i : Instr} (h : decode c = .ok i) : LegalAs (opOf i) c.cmd := by
  unfold decode at h
  split at h
  · cases h
  next o hop =>
    split at h
    · cases h
    next hres =>
      split at h
      · cases h
      next hna =>
        split at h
        · cases h
        next hwidth =>
          cases h
          rw [opOf_assembleOp]
          exact ⟨(code_of_opOfCode hop).symm, by simpa using hres, by simpa using hna, by simpa using hwidth⟩

/-! ## Legal words -/

theorem decode_of_fields {o : Op} {w : CmdWord} {na : Bool} {width : Nat} (d : Word) (h : LegalAs o w)
    (hna : naField w = na) (hwidth : widthOfField (wm1Field w) = width) :
    decode ⟨w, d⟩ = .ok (assembleOp o na width d) := by
  rw [decode_of_legalAs h, hna, hwidth]

/-- The rule's example words: opcode, `na` and width of each are read off, whatever the operand. -/
theorem decode_exampleWords (d : Word) :
    decode ⟨0x100B, d⟩ = .ok (.encU false 12 d) ∧ decode ⟨0x1125, d⟩ = .ok (.encS false 38 d) ∧
    decode ⟨0x1297, d⟩ = .ok (.encSM true 24 d) ∧ decode ⟨0x1925, d⟩ = .ok (.decS 38 d) ∧
    decode ⟨0x103F, d⟩ = .ok (.encU false 64 d) :=
  ⟨decode_of_fields (o := .encU) d ⟨rfl, rfl, fun _ => rfl, fun _ => rfl⟩ rfl rfl,
   decode_of_fields (o := .encS) d ⟨rfl, rfl, fun _ => rfl, fun _ => rfl⟩ rfl rfl,
   decode_of_fields (o := .encSM) d ⟨rfl, rfl, fun _ => rfl, fun _ => rfl⟩ rfl rfl,
   decode_of_fields (o := .decS) d ⟨rfl, rfl, fun h => absurd h (by decide), fun _ => rfl⟩ rfl rfl,
   decode_of_fields (o := .encU) d ⟨rfl, rfl, fun _ => rfl, fun _ => rfl⟩ rfl rfl⟩

/-- Settles O3: a row's test and the decoder's tests are both `LegalAs`, of which a word has at most one. -/
theorem legalWordsAreTheTableRows : Obligations.LegalWordsAreTheTableRows := by
  refine ⟨fun c i h => ?_, fun c r hr hsel => ?_, fun w r r' hr hr' hsel hsel' => ?_, rfl, decode_exampleWords⟩
  · exact ⟨rowOf (opOf i), mem_opcodeRows_iff.mpr ⟨_, rfl⟩, rfl, (selects_rowOf_iff _ _).mpr (legalAs_of_decode h)⟩
  · obtain ⟨o, rfl⟩ := mem_opcodeRows_iff.mp hr
    exact ⟨_, decode_of_legalAs ((selects_rowOf_iff _ _).mp hsel), opOf_assembleOp _ _ _ _⟩
  · obtain ⟨o, rfl⟩ := mem_opcodeRows_iff.mp hr
    obtain ⟨o', rfl⟩ := mem_opcodeRows_iff.mp hr'
    rw [((selects_rowOf_iff _ _).mp hsel).unique ((selects_rowOf_iff _ _).mp hsel')]

/-! ## Illegal words -/

theorem no_row_iff (w : CmdWord) : (∀ r ∈ opcodeRows, w &&& r.mask ≠ r.pattern) ↔ ∀ o, ¬LegalAs o w := by
  simp only [mem_opcodeRows_iff, forall_exists_index, forall_apply_eq_imp_iff, ne_eq, selects_rowOf_iff]

/-- The decoder refuses a word exactly when no command has it. -/
theorem decode_error_iff (c : Command) : (∃ e, decode c = .error e) ↔ ∀ o, ¬LegalAs o c.cmd := by
  constructor
  · rintro ⟨e, he⟩ o ho
    rw [decode_of_legalAs ho] at he
    cases he
  · intro hnone
    cases h : decode c with
    | error e => exact ⟨e, rfl⟩
    | ok i => exact absurd (legalAs_of_decode h) (hnone _)

/-- The opcodes of the classes `p` picks, in the table's order. -/
def codesOf (p : FormatClass → Bool) : List (BitVec 8) := (allOps.filter (fun o => p o.formatClass)).map Op.code

theorem code_mem_codesOf_iff {p : FormatClass → Bool} {o : Op} : o.code ∈ codesOf p ↔ p o.formatClass = true := by
  rw [codesOf, List.mem_map]
  constructor
  · rintro ⟨o', ho', hcode⟩
    exact code_injective hcode ▸ (List.mem_filter.mp ho').2
  · exact fun hp => ⟨o, List.mem_filter.mpr ⟨mem_allOps o, hp⟩, rfl⟩

/-- Among the words with the opcode of `o`, the illegal ones are those that break one of the other three conditions. -/
theorem forall_not_legalAs_iff {o : Op} {w : CmdWord} (hop : opField w = o.code) :
    (∀ o', ¬LegalAs o' w) ↔
      reservedField w = true ∨ (naField w = true ∧ ¬o.formatClass.usesNa = true) ∨
        (wm1Field w ≠ 0#6 ∧ ¬o.formatClass.usesWidth = true) := by
  have hself : (∀ o', ¬LegalAs o' w) ↔ ¬LegalAs o w :=
    ⟨fun h => h o, fun h o' ho' => h (code_injective (ho'.opcode.symm.trans hop) ▸ ho')⟩
  have hfields : LegalAs o w ↔ reservedField w = false ∧ (naField w = true → o.formatClass.usesNa = true) ∧
      (wm1Field w ≠ 0#6 → o.formatClass.usesWidth = true) :=
    ⟨fun ⟨_, h2, h3, h4⟩ => ⟨h2, h3, h4⟩, fun ⟨h2, h3, h4⟩ => ⟨hop, h2, h3, h4⟩⟩
  rw [hself, hfields, not_and_or, not_and_or, Bool.not_eq_false, Classical.not_imp, Classical.not_imp]

/-- R54 in its two forms: the opcode is assigned or it is not, and an assigned one names the command the word would be. -/
theorem no_row_iff_fields (w : CmdWord) :
    (∀ r ∈ opcodeRows, w &&& r.mask ≠ r.pattern) ↔
      (opField w ∉ allOps.map Op.code ∨ reservedField w = true ∨
        (naField w = true ∧ opField w ∉ codesOf FormatClass.usesNa) ∨
        (wm1Field w ≠ 0#6 ∧ opField w ∉ codesOf FormatClass.usesWidth)) := by
  rw [no_row_iff]
  by_cases hassigned : opField w ∈ allOps.map Op.code
  · obtain ⟨o, _, hcode⟩ := List.mem_map.mp hassigned
    rw [or_iff_right (not_not_intro hassigned), forall_not_legalAs_iff hcode.symm, ← hcode, code_mem_codesOf_iff,
      code_mem_codesOf_iff]
  · exact iff_of_true (fun o ho => hassigned (List.mem_map.mpr ⟨o, mem_allOps o, ho.opcode.symm⟩)) (.inl hassigned)

/-! ## The illegal command -/

/-- Its whole next state: `err` and the response, with `ev_err` and the flags as they then are. -/
theorem illegalCommand_next (e : DecodeError) (s : State) : illegalCommand e s = .next { s with
    err := true
    resp := some ⟨statByte s.warn s.ovf true s.matchFlag false false true, 0#64⟩ } := by
  rw [illegalCommand_eq, statOf_eq_statByte]
  rfl

/-- Settles O4: `LegalAs` stands between the rows, the fields and the decoder; the rule's three lists of opcodes are those of all
classes, of the classes that use `na`, and of those that use `wm1`. -/
theorem illegalCommandSetsErrOnly : Obligations.IllegalCommandSetsErrOnly :=
  ⟨no_row_iff_fields, fun c => (no_row_iff c.cmd).trans (decode_error_iff c).symm, illegalCommand_next⟩

end Sys2Proof.Proofs
end

section
/-!
PROOFS. The response status (spec 30_encoding.md R49): what `stat` reports of the command just executed.
-/

namespace Sys2Proof.Proofs

open Sys2Proof.Machine Sys2Proof.Safety

/-- The response in `t` reports the flags of `t` and the events of the legal command `i`, executed in `s`. -/
def ReportsStatus (i : Instr) (s t : State) : Prop :=
  ∃ v, t.resp = some ⟨statByte t.warn t.ovf t.err t.matchFlag (outOfRange i) (appendRefused i s) false, v⟩

/-- Every step ends by `complete`, which samples the flags after the writes; what is left is that the events are those of `i`. -/
theorem reportsStatus_of_complete {i : Instr} {events : List Event} {v : Word} {s u t : State}
    (hrange : events.contains .rangeWarning = outOfRange i)
    (hrefused : events.contains .payloadOverflow = appendRefused i s)
    (hlegal : events.contains .illegalCommand = false)
    (h : complete events v u = .next t) : ReportsStatus i s t := by
  obtain rfl := complete_next_iff.mp h
  exact ⟨v, by rw [respond_resp, statOf_eq_statByte, hrange, hrefused, hlegal]; rfl⟩

/-- The three encodes share one effect, and with it one response. -/
theorem reportsStatus_of_encode {i : Instr} {w : Nat} {e : Encoded w} {na : Bool} {s t : State}
    (hrange : outOfRange i = !e.inr) (hrefused : appendRefused i s = (!na && !appendFits w s))
    (h : encodeAndAppend e na s = .next t) : ReportsStatus i s t := by
  rw [encodeAndAppend_eq] at h
  cases h
  exact ⟨e.f.setWidth 64, by rw [hrange, hrefused]⟩

/-- CrcMismatch, the event of the second verdict, has no bit of its own (60_exceptions.md R118). -/
theorem execChkResult_reportsStatus {s t : State} (h : execChkResult s = .next t) : ReportsStatus .chkResult s t := by
  unfold execChkResult at h
  split at h
  · exact reportsStatus_of_complete rfl rfl rfl h
  · exact reportsStatus_of_complete rfl rfl rfl h

/-- The encodes, the verdict, and the commands that raise nothing. -/
theorem exec_reportsStatus {i : Instr} {s t : State} (h : exec i s = .next t) : ReportsStatus i s t := by
  cases i with
  | encU na w d => exact reportsStatus_of_encode (outOfRange_encU na w d) (by rw [not_appendFits]; rfl) h
  | encS na w d => exact reportsStatus_of_encode (outOfRange_encS na w d) (by rw [not_appendFits]; rfl) h
  | encSM na w d => exact reportsStatus_of_encode (outOfRange_encSM na w d) (by rw [not_appendFits]; rfl) h
  | chkResult => exact execChkResult_reportsStatus h
  | nop | rdStatus | clrFlags | rdPlen | decU | decS | decSM | crcInit | crcByte | crcRd | payClr | buildFrame |
    chkStart | chkByte => exact reportsStatus_of_complete rfl rfl rfl h

/-- An illegal command reports itself, and answers 0. -/
theorem illegalCommand_reportsStatus {e : DecodeError} {s t : State} (h : illegalCommand e s = .next t) :
    t.resp = some ⟨statByte t.warn t.ovf t.err t.matchFlag false false true, 0#64⟩ := by
  rw [illegalCommand_next] at h
  cases h
  rfl

/-- The weights of `statByte` are its bit positions. -/
theorem statByte_bits : ∀ w o e m ew eo ee : Bool,
    (statByte w o e m ew eo ee).getLsbD 0 = w ∧ (statByte w o e m ew eo ee).getLsbD 1 = o ∧
    (statByte w o e m ew eo ee).getLsbD 2 = e ∧ (statByte w o e m ew eo ee).getLsbD 3 = m ∧
    (statByte w o e m ew eo ee).getLsbD 4 = ew ∧ (statByte w o e m ew eo ee).getLsbD 5 = eo ∧
    (statByte w o e m ew eo ee).getLsbD 6 = ee ∧ (statByte w o e m ew eo ee).getLsbD 7 = false := by decide

/-- Without events the upper half is 0. -/
theorem statByte_upper_eq_zero : ∀ w o e m : Bool,
    (statByte w o e m false false false).extractLsb' 4 4 = 0#4 := by decide

/-- `STATUS` bit by bit (10_state.md R24). -/
theorem statusReg_bits (s : State) :
    (statusReg s).getLsbD 0 = s.warn ∧ (statusReg s).getLsbD 1 = s.ovf ∧ (statusReg s).getLsbD 2 = s.err ∧
    (statusReg s).getLsbD 3 = s.matchFlag ∧ (statusReg s).extractLsb' 4 4 = 0#4 := by
  rw [statusReg_eq_statByte]
  obtain ⟨hwarn, hovf, herr, hmatch, _⟩ := statByte_bits s.warn s.ovf s.err s.matchFlag false false false
  exact ⟨hwarn, hovf, herr, hmatch, statByte_upper_eq_zero _ _ _ _⟩

/-- Settles O11: `stat` of a legal and of an illegal command, and the bits of both bytes. -/
theorem responseStatusReportsThisCommand : Obligations.ResponseStatusReportsThisCommand :=
  ⟨fun _ _ _ h => exec_reportsStatus h, fun _ _ _ h => illegalCommand_reportsStatus h, statByte_bits, statusReg_bits⟩

end Sys2Proof.Proofs
end

section
/-!
PROOFS. Command words from their fields (spec 30_encoding.md R47, R51): what the decoder reads back from the word of an opcode, a flag
and a width, and the form in which the rules write such a word, `op << 8 | na << 7 | wm1`.
-/

namespace Sys2Proof.Proofs

/-! ## The fields of an assembled word -/

@[simp] theorem opField_cmdWordOf (o : Op) (na : Bool) (wm1 : BitVec 6) : opField (cmdWordOf o na wm1) = o.code := by
  cases o <;> revert na wm1 <;> decide

@[simp] theorem naField_cmdWordOf (o : Op) (na : Bool) (wm1 : BitVec 6) : naField (cmdWordOf o na wm1) = na := by
  cases o <;> revert na wm1 <;> decide

@[simp] theorem reservedField_cmdWordOf (o : Op) (na : Bool) (wm1 : BitVec 6) :
    reservedField (cmdWordOf o na wm1) = false := by
  cases o <;> revert na wm1 <;> decide

@[simp] theorem wm1Field_cmdWordOf (o : Op) (na : Bool) (wm1 : BitVec 6) : wm1Field (cmdWordOf o na wm1) = wm1 :=
  BitVec.extractLsb'_append_eq_right

/-- R51 with the numbers of 00_scope.md R5. -/
theorem widthOk_iff {w : Nat} : WidthOk w ↔ 1 ≤ w ∧ w ≤ 64 := Iff.rfl

theorem fieldOfWidth_toNat {w : Nat} (hw : WidthOk w) : (fieldOfWidth w).toNat = w - 1 := by
  obtain ⟨_, hmax⟩ := widthOk_iff.mp hw
  rw [fieldOfWidth, BitVec.toNat_ofNat]
  omega

/-- R51: the widths 1..64 survive the way through `wm1`. -/
theorem widthOfField_fieldOfWidth {w : Nat} (hw : WidthOk w) : widthOfField (fieldOfWidth w) = w := by
  obtain ⟨hmin, _⟩ := widthOk_iff.mp hw
  rw [widthOfField, fieldOfWidth_toNat hw]
  omega

/-! ## Decoding an assembled word -/

/-- Where the class uses the width, and the flag if it is set, the word is the command's. -/
theorem decode_cmdWordOf {o : Op} {na : Bool} {w : Nat} (d : Word) (hw : WidthOk w)
    (hwidth : o.formatClass.usesWidth = true) (hna : na = true → o.formatClass.usesNa = true) :
    decode ⟨cmdWordOf o na (fieldOfWidth w), d⟩ = .ok (assembleOp o na w d) :=
  decode_of_fields d ⟨opField_cmdWordOf .., reservedField_cmdWordOf .., by rwa [naField_cmdWordOf], fun _ => hwidth⟩
    (naField_cmdWordOf ..) (by rw [wm1Field_cmdWordOf, widthOfField_fieldOfWidth hw])

/-- Where the class does not use the flag, the flag is the reason for refusing, whatever the width. -/
theorem decode_cmdWordOf_naNotZero {o : Op} (wm1 : BitVec 6) (d : Word) (hna : o.formatClass.usesNa = false) :
    decode ⟨cmdWordOf o true wm1, d⟩ = .error .naNotZero := by
  simp [decode, hna]

/-! ## The words as the rules write them -/

/-- `op << 8 | na << 7 | wm1`, the form of 40_bitfield.md R68 to R70, and with `na` = 0 that of R71 to R73. -/
theorem or_eq_cmdWordOf (o : Op) (na : Bool) {w : Nat} (hw : WidthOk w) :
    (o.code ++ 0#8) ||| (if na then 1#16 <<< 7 else 0#16) ||| BitVec.ofNat 16 (w - 1) =
      cmdWordOf o na (fieldOfWidth w) := by
  have hwide : BitVec.ofNat 16 (w - 1) = (fieldOfWidth w).setWidth 16 := by
    rw [← fieldOfWidth_toNat hw, BitVec.ofNat_toNat]
  have hfields : ∀ wm1 : BitVec 6, (o.code ++ 0#8) ||| (if na then 1#16 <<< 7 else 0#16) ||| wm1.setWidth 16 =
      cmdWordOf o na wm1 := by cases o <;> revert na <;> decide
  rw [hwide, hfields]

/-- R53, class WE: `op << 8 | na << 7 | wm1` is the encode of that flag and width. -/
theorem decode_encodeWord {o : Op} (ho : o.formatClass = .we) (na : Bool) {w : Nat} (d : Word) (hw : WidthOk w) :
    decode ⟨(o.code ++ 0#8) ||| (if na then 1#16 <<< 7 else 0#16) ||| BitVec.ofNat 16 (w - 1), d⟩ =
      .ok (assembleOp o na w d) := by
  rw [or_eq_cmdWordOf o na hw]
  exact decode_cmdWordOf d hw (by rw [ho]; rfl) (fun _ => by rw [ho]; rfl)

/-- R53, class WD: `op << 8 | wm1` is the decode of that width. -/
theorem decode_decodeWord {o : Op} (ho : o.formatClass = .wd) {w : Nat} (d : Word) (hw : WidthOk w) :
    decode ⟨(o.code ++ 0x00#8) ||| BitVec.ofNat 16 (w - 1), d⟩ = .ok (assembleOp o false w d) := by
  have hword := or_eq_cmdWordOf o false hw
  rw [if_neg Bool.false_ne_true, BitVec.or_zero] at hword
  rw [hword]
  exact decode_cmdWordOf d hw (by rw [ho]; rfl) (fun h => absurd h Bool.false_ne_true)

/-- R54, class WD: with bit 7 set the word is illegal. -/
theorem decode_decodeWord_na {o : Op} (ho : o.formatClass = .wd) {w : Nat} (d : Word) (hw : WidthOk w) :
    decode ⟨(o.code ++ 0x80#8) ||| BitVec.ofNat 16 (w - 1), d⟩ = .error .naNotZero := by
  have hflag : o.code ++ 0x80#8 = (o.code ++ 0#8) ||| (if true then 1#16 <<< 7 else 0#16) := by
    cases o <;> decide
  rw [hflag, or_eq_cmdWordOf o true hw]
  exact decode_cmdWordOf_naNotZero _ d (by rw [ho]; rfl)

end Sys2Proof.Proofs
end

section
/-!
PROOFS. The decode commands `DEC_U`, `DEC_S`, `DEC_SM` (spec 40_bitfield.md R71 to R73): their words, and their values as integers.
-/

namespace Sys2Proof.Proofs

open Sys2Proof.Machine Sys2Proof.Safety

/-! ## What the three share -/

/-- A command that raises nothing and writes nothing changes the response alone. -/
theorem complete_nil (v : Word) (s : State) : complete [] v s = .next { s with resp := some ⟨plainStat s, v⟩ } := by
  rw [complete_eq, statOf_nil]

/-- A change of width keeps every bit the new width has: the field `data[W-1:0]` those of the operand, a word those of the field. -/
theorem getLsbD_setWidth_of_lt {v w i : Nat} (x : BitVec v) (hi : i < w) : (x.setWidth w).getLsbD i = x.getLsbD i := by
  rw [BitVec.getLsbD_setWidth, decide_eq_true hi, Bool.true_and]

/-! ## Zero extension -/

/-- Settles O23: zero-extending the field is taking the operand modulo `2^W`. -/
theorem decUResult : Obligations.DecUResult := by
  intro w d hw
  refine ⟨decode_decodeWord (o := .decU) rfl d hw, decode_decodeWord_na (o := .decU) rfl d hw, fun s => ?_⟩
  have hvalue : (d.setWidth w).setWidth 64 = BitVec.ofNat 64 (d.toNat % 2 ^ w) := by
    rw [← BitVec.toNat_setWidth, BitVec.ofNat_toNat]
  rw [← hvalue]
  exact complete_nil _ s

/-! ## Sign extension -/

/-- R72: below W the field's own bits, from W on copies of its sign. -/
theorem getLsbD_signExtend_setWidth {w : Nat} (d : Word) (hw : WidthOk w) {i : Nat} (hi : i < 64) :
    ((d.setWidth w).signExtend 64).getLsbD i = d.getLsbD (min i (w - 1)) := by
  obtain ⟨hmin, _⟩ := widthOk_iff.mp hw
  rw [BitVec.getLsbD_signExtend, decide_eq_true hi, Bool.true_and]
  split
  next hin =>
    rw [getLsbD_setWidth_of_lt d hin, min_eq_left (by omega)]
  next hout =>
    rw [BitVec.msb_eq_getLsbD_last, getLsbD_setWidth_of_lt d (by omega), min_eq_right (by omega)]

/-- Settles O24: sign extension keeps the integer. -/
theorem decSResult : Obligations.DecSResult := by
  intro w d hw
  exact ⟨decode_decodeWord (o := .decS) rfl d hw, decode_decodeWord_na (o := .decS) rfl d hw,
    (d.setWidth w).signExtend 64, fun s => complete_nil _ s,
    fun _ hi => getLsbD_signExtend_setWidth d hw hi, BitVec.toInt_signExtend_of_le hw.2⟩

/-! ## Sign and magnitude -/

/-- A magnitude of at most 63 bits keeps its value in 64 bits, and the negative of it as well. -/
theorem toInt_signed_magnitude (sign : Bool) {m : Word} (hm : m.toNat < 2 ^ 63) :
    (if sign then -m else m).toInt = if sign then -(m.toNat : Int) else (m.toNat : Int) := by
  have hmsb : m.msb = false := BitVec.msb_eq_false_iff_two_mul_lt.mpr (by omega)
  cases sign with
  | false => exact BitVec.toInt_eq_toNat_of_msb hmsb
  | true => exact (BitVec.toInt_neg_eq_of_msb hmsb).trans (congrArg _ (BitVec.toInt_eq_toNat_of_msb hmsb))

/-- `dec_sm` of the field `data[W-1:0]` (R66) in terms of the operand: the bits above W are dropped. -/
theorem decSM_setWidth {w : Nat} (d : Word) (hmin : 1 ≤ w) :
    decSM (d.setWidth w) = if d.getLsbD (w - 1) then -((d.toNat % 2 ^ (w - 1) : Nat) : Int)
      else ((d.toNat % 2 ^ (w - 1) : Nat) : Int) := by
  have hsign : (d.setWidth w).getLsbD (w - 1) = d.getLsbD (w - 1) := getLsbD_setWidth_of_lt d (by omega)
  have hmag : (d.setWidth w).toNat % 2 ^ (w - 1) = d.toNat % 2 ^ (w - 1) := by
    rw [BitVec.toNat_setWidth, Nat.mod_mod_of_dvd _ (Nat.pow_dvd_pow 2 (Nat.sub_le w 1))]
  rw [decSM, hsign, hmag]

/-- R73: the magnitude `data[W-2:0]`, which is 0 for W = 1, below 2^63. -/
theorem toNat_magnitude {w : Nat} (d : Word) (hw : WidthOk w) :
    ((d.setWidth (w - 1)).setWidth 64).toNat = d.toNat % 2 ^ (w - 1) ∧ d.toNat % 2 ^ (w - 1) < 2 ^ 63 := by
  obtain ⟨_, hmax⟩ := widthOk_iff.mp hw
  have hlt : d.toNat % 2 ^ (w - 1) < 2 ^ 63 :=
    (Nat.mod_lt _ (Nat.two_pow_pos _)).trans_le (Nat.pow_le_pow_right (by decide) (by omega))
  refine ⟨?_, hlt⟩
  rw [BitVec.toNat_setWidth, BitVec.toNat_setWidth, Nat.mod_eq_of_lt (by omega)]

/-- `DEC_SM` answers the magnitude or its negative, as the operand's sign bit `data[W-1]` says. -/
theorem exec_decSM {w : Nat} (d : Word) (hmin : 1 ≤ w) (s : State) : exec (.decSM w d) s = .next { s with
    resp := some ⟨plainStat s,
      if d.getLsbD (w - 1) then -((d.setWidth (w - 1)).setWidth 64) else (d.setWidth (w - 1)).setWidth 64⟩ } := by
  have hsign : (d.setWidth w).getLsbD (w - 1) = d.getLsbD (w - 1) := getLsbD_setWidth_of_lt d (by omega)
  rw [← hsign]
  exact complete_nil _ s

/-- Settles O25: the magnitude stays below the sign bit of the answer. -/
theorem decSMResult : Obligations.DecSMResult := by
  intro w d hw
  obtain ⟨hmin, _⟩ := widthOk_iff.mp hw
  obtain ⟨hm, hlt⟩ := toNat_magnitude d hw
  have hvalue := toInt_signed_magnitude (d.getLsbD (w - 1)) (hm ▸ hlt)
  rw [hm] at hvalue
  exact ⟨decode_decodeWord (o := .decSM) rfl d hw, decode_decodeWord_na (o := .decSM) rfl d hw,
    _, exec_decSM d hmin, hvalue, hvalue.trans (decSM_setWidth d hmin).symm⟩

end Sys2Proof.Proofs
end

section
/-!
PROOFS. The encode commands `ENC_U`, `ENC_S`, `ENC_SM` (spec 40_bitfield.md R68 to R70): their words, the range check and the field in
the hardware's terms, and their common effect (R67).
-/

namespace Sys2Proof.Proofs

open Sys2Proof.Machine Sys2Proof.Safety

/-! ## The common effect -/

/-- A field of at most 64 bits is written to the wire from the word that holds it. -/
theorem str_eq_map_setWidth {w : Nat} (f : BitVec w) (hmax : w ≤ 64) :
    str f = (List.range w).map (fun i => (f.setWidth 64).getLsbD (w - 1 - i)) := by
  refine List.map_congr_left fun i hi => ?_
  have hi' : i < w := List.mem_range.mp hi
  rw [getLsbD_setWidth_of_lt f (by omega)]

/-- The machine's encode is `afterEncode`: not appending, appended, refused. -/
theorem encodeAndAppend_eq_afterEncode {w : Nat} (e : Encoded w) (na : Bool) (s : State) (hmax : w ≤ 64) :
    encodeAndAppend e na s = .next (afterEncode (e.f.setWidth 64) w e.inr na s) := by
  rw [encodeAndAppend_eq, afterEncode, ← str_eq_map_setWidth e.f hmax]
  cases na with
  | true => simp
  | false =>
    by_cases hfit : s.plen.toNat + w ≤ 8184
    · simp [appendFits, hfit, BitVec.ofNat_add]
    · simp [appendFits, hfit]

/-! ## The range checks -/

/-- The bits from k on are all 0 exactly below 2^k. -/
theorem ushiftRight_eq_zero_iff_lt (x : Word) (k : Nat) : x >>> k = 0#64 ↔ x.toNat < 2 ^ k := by
  rw [← BitVec.toNat_inj, BitVec.toNat_ushiftRight, Nat.shiftRight_eq_div_pow, BitVec.toNat_ofNat, Nat.zero_mod,
    Nat.div_eq_zero_iff_lt (Nat.two_pow_pos k)]

theorem ushiftRight_beq_zero (x : Word) (k : Nat) : (x >>> k == 0#64) = !decide (2 ^ k ≤ x.toNat) := by
  rw [Bool.beq_eq_decide_eq, ← decide_not, decide_eq_decide, ushiftRight_eq_zero_iff_lt, Nat.not_le]

/-- The bits from k on one by one. -/
theorem lt_two_pow_iff_bits (x : Word) (k : Nat) : x.toNat < 2 ^ k ↔ ∀ i < 64, k ≤ i → x.getLsbD i = false := by
  constructor
  · exact fun h i _ hi => Nat.testBit_lt_two_pow (h.trans_le (Nat.pow_le_pow_right (by decide) hi))
  · intro h
    refine Nat.lt_pow_two_of_testBit _ fun i hi => ?_
    by_cases hi64 : i < 64
    · exact h i hi64 hi
    · exact BitVec.getLsbD_of_ge x i (by omega)

/-- The integer `sint(d)`: `d` itself, or where it is negative by its complement, whose upper bits are then the ones to be 0. -/
theorem toInt_eq_of_sign (d : Word) :
    d.toInt = if d.getLsbD 63 then -((~~~d).toNat : Int) - 1 else (d.toNat : Int) := by
  have hd := d.isLt
  rw [BitVec.toInt_eq_msb_cond, BitVec.msb_eq_getLsbD_last, BitVec.toNat_not]
  split <;> omega

/-- R69: the bits `data[63:k]` are all equal exactly from -2^k to 2^k - 1. -/
theorem signBitsEqual_iff (d : Word) (k : Nat) :
    (∀ i < 64, k ≤ i → d.getLsbD i = d.getLsbD 63) ↔
      -((2 ^ k : Nat) : Int) ≤ d.toInt ∧ d.toInt ≤ ((2 ^ k : Nat) : Int) - 1 := by
  have hpos := Nat.two_pow_pos k
  rw [toInt_eq_of_sign]
  cases hsign : d.getLsbD 63 with
  | false =>
    rw [← lt_two_pow_iff_bits d k, if_neg Bool.false_ne_true]
    omega
  | true =>
    have hbits : (∀ i < 64, k ≤ i → d.getLsbD i = true) ↔ ∀ i < 64, k ≤ i → (~~~d).getLsbD i = false := by
      refine forall₂_congr fun i hi => imp_congr_right fun _ => ?_
      rw [BitVec.getLsbD_not, decide_eq_true hi, Bool.true_and, Bool.not_eq_false']
    rw [hbits, ← lt_two_pow_iff_bits (~~~d) k, if_pos rfl]
    omega

/-- The check of R69 as the statement computes it. -/
theorem all_signBits_iff (d : Word) (k : Nat) :
    (List.range 64).all (fun i => i < k || d.getLsbD i == d.getLsbD 63) = true ↔
      ∀ i < 64, k ≤ i → d.getLsbD i = d.getLsbD 63 := by
  simp only [List.all_eq_true, List.mem_range, Bool.or_eq_true, decide_eq_true_eq, beq_iff_eq, imp_iff_not_or (a := k ≤ _),
    Nat.not_le]

/-- R70: `m`, the operand or its 64-bit negation, is the magnitude of `sint(d)`, -2^63 included. -/
theorem toNat_magnitude_of_sign (d : Word) : (if d.getLsbD 63 then ~~~d + 1#64 else d).toNat = d.toInt.natAbs := by
  have hd := d.isLt
  have habs : (if d.getLsbD 63 then ~~~d + 1#64 else d) = d.abs := by
    rw [BitVec.abs_eq, BitVec.msb_eq_getLsbD_last, BitVec.neg_eq_not_add]
  rw [habs, BitVec.toNat_abs, BitVec.toInt_eq_msb_cond]
  split <;> omega

/-! ## The field of `ENC_SM` -/

/-- `enc_sm`'s field (R63) is the sign times its weight, plus the low W-1 bits of the magnitude. -/
theorem toNat_encSM_setWidth {w : Nat} (x : Int) (hw : WidthOk w) :
    ((encSM x w).f.setWidth 64).toNat = (decide (x < 0)).toNat * 2 ^ (w - 1) + x.natAbs % 2 ^ (w - 1) := by
  obtain ⟨hmin, hmax⟩ := widthOk_iff.mp hw
  have hlow : x.natAbs % 2 ^ (w - 1) < 2 ^ (w - 1) := Nat.mod_lt _ (Nat.two_pow_pos _)
  have hsign : (decide (x < 0)).toNat * 2 ^ (w - 1) ≤ 1 * 2 ^ (w - 1) := Nat.mul_le_mul_right _ (Bool.toNat_le _)
  have htop : 2 * 2 ^ (w - 1) = 2 ^ w := mul_pow_sub_one (by omega) 2
  have h64 : 2 ^ w ≤ 2 ^ 64 := Nat.pow_le_pow_right (by decide) hmax
  have hfield : (encSM x w).f = BitVec.ofNat w ((decide (x < 0)).toNat * 2 ^ (w - 1) + x.natAbs % 2 ^ (w - 1)) := by
    rw [Bool.toNat, Bool.cond_decide]; rfl
  rw [hfield, BitVec.toNat_setWidth, BitVec.toNat_ofNat, Nat.mod_eq_of_lt (b := 2 ^ w) (by omega),
    Nat.mod_eq_of_lt (by omega)]

/-- A sign bit set by an or above k bits adds its weight. -/
theorem toNat_or_signBit {low : Word} {k : Nat} (sign : Bool) (hk : k < 64) (hlow : low.toNat < 2 ^ k) :
    (low ||| (if sign then 1#64 <<< k else 0#64)).toNat = sign.toNat * 2 ^ k + low.toNat := by
  cases sign with
  | false => simp
  | true =>
    have hbit : (1#64 <<< k).toNat = 2 ^ k * 1 := (BitVec.toNat_twoPow_of_lt hk).trans (Nat.mul_one _).symm
    rw [if_pos rfl, BitVec.toNat_or, hbit, Nat.or_comm, ← Nat.two_pow_add_eq_or_of_lt hlow 1, Bool.toNat_true,
      Nat.mul_comm]

/-! ## The three commands -/

/-- An encode whose field, in a word, is `f` and whose range check is the column of R68 to R70. -/
theorem encodeAndAppend_eq_of_column {i : Instr} {w : Nat} {e : Encoded w} {f : Word} {inr : Bool} (na : Bool) (s : State)
    (hmax : w ≤ 64) (hf : e.f.setWidth 64 = f) (hcolumn : outOfRange i = !e.inr) (hinr : inr = !outOfRange i) :
    encodeAndAppend e na s = .next (afterEncode f w inr na s) := by
  rw [hinr, hcolumn, Bool.not_not, ← hf]
  exact encodeAndAppend_eq_afterEncode e na s hmax

/-- Settles O19: `BitVec.ofNat` takes the low W bits of `uint(data)`, which are those of `data`. -/
theorem encUResult : Obligations.EncUResult := by
  intro na w d hw
  have hinr := ushiftRight_beq_zero d w
  have hf : (encU (operandUnsigned d) w).f = d.setWidth w := BitVec.ofNat_toNat w d
  exact ⟨decode_encodeWord (o := .encU) rfl na d hw, hinr, fun s =>
    encodeAndAppend_eq_of_column na s hw.2 (by rw [hf]) (outOfRange_encU na w d) hinr⟩

/-- Settles O20: `BitVec.ofInt` takes the low W bits of `sint(data)`, which are those of `data`. -/
theorem encSResult : Obligations.EncSResult := by
  intro na w d hw inr
  have hinr : inr = !decide (d.toInt < -((2 ^ (w - 1) : Nat) : Int) ∨ ((2 ^ (w - 1) : Nat) : Int) - 1 < d.toInt) := by
    rw [Bool.eq_iff_iff, all_signBits_iff, signBitsEqual_iff, Bool.not_eq_true', decide_eq_false_iff_not]
    omega
  have hf : (encS (operandSigned d) w).f = d.setWidth w := BitVec.signExtend_eq_setWidth_of_le d hw.2
  exact ⟨decode_encodeWord (o := .encS) rfl na d hw, hinr, fun s =>
    encodeAndAppend_eq_of_column na s hw.2 (by rw [hf]) (outOfRange_encS na w d) hinr⟩

/-- Settles O21: `m` is the magnitude, and the sign bit stands above its low W-1 bits. -/
theorem encSMResult : Obligations.EncSMResult := by
  intro na w d hw m f
  obtain ⟨hmin, hmax⟩ := widthOk_iff.mp hw
  have hm : m.toNat = d.toInt.natAbs := toNat_magnitude_of_sign d
  have hinr : (m >>> (w - 1) == 0#64) = !decide (2 ^ (w - 1) ≤ d.toInt.natAbs) := by
    rw [ushiftRight_beq_zero, hm]
  have hf : (encSM (operandSigned d) w).f.setWidth 64 = f := by
    obtain ⟨hlow, _⟩ := toNat_magnitude m hw
    have hsign : d.getLsbD 63 = decide (d.toInt < 0) := by rw [← BitVec.msb_eq_toInt, BitVec.msb_eq_getLsbD_last]
    apply BitVec.eq_of_toNat_eq
    rw [toNat_encSM_setWidth _ hw, ← hsign, ← hm, ← hlow]
    exact (toNat_or_signBit _ (by omega) (hlow ▸ Nat.mod_lt _ (Nat.two_pow_pos _))).symm
  exact ⟨decode_encodeWord (o := .encSM) rfl na d hw, hinr, fun s =>
    encodeAndAppend_eq_of_column na s hmax hf (outOfRange_encSM na w d) hinr⟩

end Sys2Proof.Proofs
end

section
/-!
PROOFS. The CRC generator's commands `CRC_INIT`, `CRC_BYTE`, `CRC_RD` (spec 41_crc24q.md R87 to R89): their words, their effects on the
whole state, and the rules' worked examples.
-/

namespace Sys2Proof.Proofs

open Sys2Proof.Machine Sys2Proof.Safety

/-! ## The words -/

/-- R53: with every bit below the opcode 0, the word is the command's own in every class; in the classes Z and D it is the only one. -/
theorem decode_opcodeWord (o : Op) (d : Word) : decode ⟨o.code ++ 0#8, d⟩ = .ok (assembleOp o false 1 d) := by
  have hword : o.code ++ 0#8 = cmdWordOf o false 0#6 := by cases o <;> rfl
  have hlegal : LegalAs o (cmdWordOf o false 0#6) :=
    ⟨opField_cmdWordOf .., reservedField_cmdWordOf .., by simp, by simp⟩
  rw [hword]
  exact decode_of_fields d hlegal (naField_cmdWordOf ..) (by rw [wm1Field_cmdWordOf]; rfl)

/-! ## The effects -/

/-- A command that raises nothing and writes `crc` alone. -/
theorem complete_nil_writeCrc (c : Crc) (v : Word) (s : State) :
    complete [] v (writeCrc c s) = .next { s with crc := c, resp := some ⟨plainStat s, v⟩ } :=
  complete_nil v (writeCrc c s)

/-- R52: the byte of `CRC_BYTE` is the low byte of the operand. -/
theorem operandByte_eq_setWidth (d : Word) : operandByte d = d.setWidth 8 := rfl

/-- The value answered is that of the register after the write. -/
theorem exec_crcByte (d : Word) (s : State) : exec (.crcByte d) s = .next { s with
    crc := crcByte s.crc (d.setWidth 8)
    resp := some ⟨plainStat s, BitVec.ofNat 64 (crcByte s.crc (d.setWidth 8)).toNat⟩ } := by
  rw [← operandByte_eq_setWidth, BitVec.ofNat_toNat]
  exact complete_nil_writeCrc _ _ s

/-! ## The examples -/

/-- R88: the register after each bit of the byte D3, from 0. -/
theorem crcBit_prefixes_D3 : ((List.range 9).map (fun n => ((str 0xD3#8).take n).foldl crcBit 0#24)) =
    [0x000000#24, 0x864CFB, 0x0C99F6, 0x1933EC, 0xB42B23, 0xEE1ABD, 0x5A7981, 0x32BFF9, 0xE33309] := by decide

/-- R89: the nine bytes of "123456789". The kernel evaluates the 72 bit steps; the elaborator's own recursion stops after one byte. -/
theorem crc24q_ascii_digits : crc24q [0x31, 0x32, 0x33, 0x34, 0x35, 0x36, 0x37, 0x38, 0x39] = 0xCDE703#24 := by
  decide +kernel

/-! ## The obligations -/

/-- Settles O29: the initial value is 0. -/
theorem crcInitResult : Obligations.CrcInitResult :=
  ⟨decode_opcodeWord .crcInit, complete_nil_writeCrc 0x000000#24 0#64⟩

/-- Settles O30: the step, and the frame header `D3 00 13` fed byte by byte from 0. -/
theorem crcByteResult : Obligations.CrcByteResult :=
  ⟨decode_opcodeWord .crcByte, exec_crcByte, crcBit_prefixes_D3, by decide, by decide, by decide⟩

/-- Settles O31: the register is read without a write. -/
theorem crcRdResult : Obligations.CrcRdResult :=
  ⟨decode_opcodeWord .crcRd, fun s => by rw [BitVec.ofNat_toNat]; exact complete_nil _ s, crc24q_ascii_digits⟩

end Sys2Proof.Proofs
end

section
/-!
PROOFS. The layout of a frame (spec 42_frame.md R93, R94): its header as three bytes, its content as the payload with zero bits behind
it, its CRC as three bytes.
-/

namespace Sys2Proof.Proofs

open Sys2Proof.Machine Sys2Proof.Safety

/-! ## The header -/

/-- R9: the bits of two fields side by side are those of the first, then those of the second. -/
theorem str_append {m n : Nat} (a : BitVec m) (b : BitVec n) : str (a ++ b) = str a ++ str b := by
  apply List.ext_getElem
  · simp
  · intro i hi hi'
    rw [str_length] at hi
    rw [str_getElem, List.getElem_append, BitVec.getLsbD_append]
    split
    next hlow =>
      rw [dif_neg (by rw [str_length]; omega), str_getElem, str_length]
      congr 1
      omega
    next hhigh =>
      rw [dif_pos (by rw [str_length]; omega), str_getElem]
      congr 1
      omega

/-- R93: six zero bits and the ten bits of a length below 1024 are the two bytes of the length. -/
theorem reserved_append_length {len : Nat} (hlen : len < 1024) :
    (0#6 ++ BitVec.ofNat 10 len : BitVec 16) = BitVec.ofNat 8 (len / 256) ++ BitVec.ofNat 8 (len % 256) := by
  apply BitVec.eq_of_toNat_eq
  rw [BitVec.toNat_append, BitVec.toNat_append, ← Nat.shiftLeft_add_eq_or_of_lt (BitVec.isLt _),
    ← Nat.shiftLeft_add_eq_or_of_lt (BitVec.isLt _), Nat.shiftLeft_eq, Nat.shiftLeft_eq]
  simp only [BitVec.toNat_ofNat]
  omega

/-- The header is three whole bytes. -/
theorem header_eq_bitsOf {len : Nat} (hlen : len < 1024) :
    header len = bitsOf [0xD3#8, BitVec.ofNat 8 (len / 256), BitVec.ofNat 8 (len % 256)] := by
  have hzeros : zeros 6 = str 0#6 := by decide
  calc header len
      = str 0xD3#8 ++ zeros 6 ++ str (BitVec.ofNat 10 len) := rfl
    _ = str 0xD3#8 ++ str (0#6 ++ BitVec.ofNat 10 len) := by rw [hzeros, str_append, List.append_assoc]
    _ = bitsOf [0xD3#8, BitVec.ofNat 8 (len / 256), BitVec.ofNat 8 (len % 256)] := by
      rw [reserved_append_length hlen, str_append]
      simp

/-! ## The content -/

/-- R95: the number of payload bytes is the number of bits over 8, rounded up. -/
theorem payloadBytes_eq_div (n : Nat) : payloadBytes n = (n + 7) / 8 := Nat.shiftRight_eq_div_pow (n + 7) 3

/-- R94: behind the payload there are zero bits up to the byte boundary. -/
theorem padded_getElem? (p : List Bool) {k : Nat} (hk : k < 8 * ((p.length + 7) / 8)) :
    (padded p)[k]? = some (p.getD k false) := by
  have hpad := hk
  rw [← padded_length, padded, List.length_append, zeros_length] at hpad
  rw [padded, List.getD_eq_getElem?_getD]
  by_cases hin : k < p.length
  · rw [List.getElem?_append_left hin, List.getElem?_eq_getElem hin, Option.getD_some]
  · have hle : p.length ≤ k := Nat.le_of_not_lt hin
    rw [List.getElem?_append_right hle, List.getElem?_eq_none hle, Option.getD_none, zeros,
      List.getElem?_replicate_of_lt (by omega)]

theorem padded_length_dvd (p : List Bool) : 8 ∣ (padded p).length := padded_length p ▸ Nat.dvd_mul_right ..

/-- The bytes of the padded payload: R94's L payload bytes. -/
theorem bytesOf_padded_length (p : List Bool) : (bytesOf (padded p)).length = (p.length + 7) / 8 := by
  rw [bytesOf_length _ (padded_length_dvd p), padded_length]
  omega

/-- What the CRC covers, byte by byte. -/
theorem frameBody_eq {p : List Bool} (hp : p.length ≤ 8184) :
    frameBody p = [0xD3#8, BitVec.ofNat 8 ((p.length + 7) / 8 / 256), BitVec.ofNat 8 ((p.length + 7) / 8 % 256)] ++
      bytesOf (padded p) := by
  rw [frameBody, payloadBytes_eq_div, header_eq_bitsOf (by omega), bytesOf_bitsOf_append]

/-! ## The CRC -/

/-- The byte of a 24-bit register from bit k up, as a number. -/
theorem extractLsb'_byte (c : BitVec 24) (k : Nat) : c.extractLsb' k 8 = BitVec.ofNat 8 (c.toNat / 2 ^ k) := by
  rw [BitVec.extractLsb', Nat.shiftRight_eq_div_pow]

/-- R35: the three bytes of a CRC by their weights. -/
theorem threeBytes_eq (c : Crc) :
    threeBytes c = [BitVec.ofNat 8 (c.toNat / 65536), BitVec.ofNat 8 (c.toNat / 256), BitVec.ofNat 8 c.toNat] := by
  simp only [threeBytes, extractLsb'_byte, Nat.reducePow, Nat.div_one]

/-! ## The obligation -/

/-- Settles O39: the content is the bytes of the padded payload. -/
theorem frameLayout : Obligations.FrameLayout := by
  intro p hp len
  refine ⟨bytesOf (padded p), bytesOf_padded_length p, fun k hk => ?_, ?_⟩
  · rw [bitsOf_bytesOf _ (padded_length_dvd p), padded_getElem? p hk]
  · intro front c
    have hbody : frameBody p = front := frameBody_eq hp
    rw [buildFrame, frameCrc, hbody, threeBytes_eq]

end Sys2Proof.Proofs
end

section
/-!
PROOFS. The packer's commands `PAY_CLR` and `BUILD_FRAME` (spec 42_frame.md R98, R99).
-/

namespace Sys2Proof.Proofs

open Sys2Proof.Machine Sys2Proof.Safety

/-- Settles O42: emptying the buffer raises nothing and keeps the flags. -/
theorem payClrResult : Obligations.PayClrResult :=
  ⟨decode_opcodeWord .payClr, fun s => complete_nil 0#64 (clearPayload s)⟩

/-- The beats go behind those already in `out`, and the frame's CRC is both register and value. -/
theorem exec_buildFrame (s : State) : exec .buildFrame s = .next { s with
    out := s.out ++ beatsOf (buildFrame s.pbuf)
    crc := frameCrc s.pbuf
    resp := some ⟨plainStat s, BitVec.ofNat 64 (frameCrc s.pbuf).toNat⟩ } := by
  have hexec : exec .buildFrame s = complete [] ((frameCrc s.pbuf).setWidth 64)
      (writeCrc (frameCrc s.pbuf) (emitAll (beatsOf (buildFrame s.pbuf)) s)) := rfl
  rw [hexec, emitAll_eq, complete_nil_writeCrc, BitVec.ofNat_toNat]
  rfl

/-- R94: a frame ends in its CRC. -/
theorem buildFrame_drop (p : List Bool) :
    (buildFrame p).drop ((buildFrame p).length - 3) = threeBytes (frameCrc p) := by
  simp [buildFrame]

/-- R99: a frame has a final byte, whose beat alone has `last`. -/
theorem beatsOf_buildFrame (p : List Bool) :
    ∃ front b, beatsOf (buildFrame p) = front ++ [⟨b, true⟩] ∧ ∀ x ∈ front, x.last = false := by
  obtain ⟨bytes, b, hframe⟩ : ∃ bytes b, buildFrame p = bytes ++ [b] :=
    ⟨_, _, (List.dropLast_append_getLast (by simp [buildFrame, threeBytes])).symm⟩
  refine ⟨bytes.map (⟨·, false⟩), b, by rw [hframe, beatsOf_snoc], fun x hx => ?_⟩
  obtain ⟨_, _, rfl⟩ := List.mem_map.mp hx
  rfl

/-- Settles O41: the beats are those of the frame's bytes. -/
theorem buildFrameResult : Obligations.BuildFrameResult := by
  refine ⟨decode_opcodeWord .buildFrame, fun s => ⟨beatsOf (buildFrame s.pbuf), frameCrc s.pbuf, exec_buildFrame s,
    beatsOf_bytes _, ?_, beatsOf_buildFrame s.pbuf⟩⟩
  rw [beatsOf_bytes, beatsOf_length, buildFrame_drop, threeBytes_eq]

end Sys2Proof.Proofs
end

section
/-!
PROOFS. The checker's commands `CHK_START`, `CHK_BYTE`, `CHK_RESULT` (spec 42_frame.md R100 to R102).
-/

namespace Sys2Proof.Proofs

open Sys2Proof.Machine Sys2Proof.Safety

/-! ## The delay line -/

/-- The test for a full `hold`, by the number `rcnt` stands for. -/
theorem rcnt_beq_three (n : BitVec 2) : (n == 3#2) = decide (n.toNat = 3) := by
  revert n; decide

/-- R101: shifting a byte into `hold` is multiplying by 256 and adding, in 24 bits. -/
theorem shift_in_byte (h : BitVec 24) (d : Word) :
    h <<< 8 ||| (operandByte d).setWidth 24 = BitVec.ofNat 24 (h.toNat * 256 + d.toNat % 256) := by
  have hbyte : d.toNat % 256 < 2 ^ 8 := Nat.mod_lt _ (by decide)
  have hlow : (operandByte d).setWidth 24 = BitVec.ofNat 24 (d.toNat % 256) := by
    rw [operandByte_eq_setWidth, ← BitVec.ofNat_toNat, BitVec.toNat_setWidth]
  have hhigh : h <<< 8 = BitVec.ofNat 24 (h.toNat <<< 8) := rfl
  rw [hlow, hhigh, ← BitVec.ofNat_or, ← Nat.shiftLeft_add_eq_or_of_lt hbyte, Nat.shiftLeft_eq]

/-- A full `hold` gives its oldest byte to `rcrc`; one not yet full counts. -/
theorem exec_chkByte (d : Word) (s : State) : exec (.chkByte d) s = .next { s with
    rcrc := if s.rcnt.toNat = 3 then crcByte s.rcrc (BitVec.ofNat 8 (s.hold.toNat / 65536)) else s.rcrc
    rcnt := if s.rcnt.toNat = 3 then s.rcnt else BitVec.ofNat 2 (s.rcnt.toNat + 1)
    hold := BitVec.ofNat 24 (s.hold.toNat * 256 + d.toNat % 256)
    resp := some ⟨plainStat s, 0#64⟩ } := by
  have hcount : s.rcnt + 1#2 = BitVec.ofNat 2 (s.rcnt.toNat + 1) := by
    rw [BitVec.ofNat_add, BitVec.ofNat_toNat, BitVec.setWidth_eq]
  have hexec : exec (.chkByte d) s = execChkByte d s := rfl
  rw [hexec, execChkByte, complete_nil, rcnt_beq_three, extractLsb'_byte, shift_in_byte, hcount]
  simp only [decide_eq_true_eq]
  rfl

/-! ## The verdict -/

/-- The condition of R102. -/
theorem verdict_eq_decide (s : State) :
    (s.rcnt == 3#2 && s.rcrc == s.hold) = decide (s.rcnt.toNat = 3 ∧ s.rcrc = s.hold) := by
  rw [rcnt_beq_three, Bool.decide_and, Bool.beq_eq_decide_eq]

/-- Either verdict is written to `match` and answered; a mismatch is an event, without a bit of its own in the status. -/
theorem exec_chkResult (s : State) : exec .chkResult s = .next { s with
    matchFlag := decide (s.rcnt.toNat = 3 ∧ s.rcrc = s.hold)
    resp := some ⟨statByte s.warn s.ovf s.err (decide (s.rcnt.toNat = 3 ∧ s.rcrc = s.hold)) false false false,
      BitVec.ofNat 64 (decide (s.rcnt.toNat = 3 ∧ s.rcrc = s.hold)).toNat⟩ } := by
  have hexec : exec .chkResult s = execChkResult s := rfl
  rw [hexec, execChkResult, verdict_eq_decide]
  cases decide (s.rcnt.toNat = 3 ∧ s.rcrc = s.hold) with
  | true => exact complete_nil 1#64 (writeMatch true s)
  | false =>
    rw [if_neg Bool.false_ne_true, complete_eq, statOf_eq_statByte]
    rfl

/-! ## The obligations -/

/-- Settles O48: the registers are written as at reset, and `match` with them. -/
theorem chkStartResult : Obligations.ChkStartResult :=
  ⟨decode_opcodeWord .chkStart, fun s => complete_nil 0#64 (writeMatch false (writeChecker 0x000000#24 0#24 0#2 s))⟩

/-- Settles O49: the test `rcnt = 3`, the byte that falls out and the shift are put as arithmetic in `exec_chkByte`. -/
theorem chkByteResult : Obligations.ChkByteResult := ⟨decode_opcodeWord .chkByte, exec_chkByte⟩

/-- Settles O50: both verdicts are in `exec_chkResult`. -/
theorem chkResultResult : Obligations.ChkResultResult := ⟨decode_opcodeWord .chkResult, exec_chkResult⟩

end Sys2Proof.Proofs
end

section
/-!
PROOFS. The control and status commands `NOP`, `RD_STATUS`, `CLR_FLAGS`, `RD_PLEN` (spec 43_control.md R111 to R114).
-/

namespace Sys2Proof.Proofs

open Sys2Proof.Machine Sys2Proof.Safety

/-! ## `STATUS` as a value -/

/-- Without events the weights 1, 2, 4, 8 of the status byte are those of the wider value. -/
theorem statByte_setWidth : ∀ w o e m : Bool, (statByte w o e m false false false).setWidth 64 =
    BitVec.ofNat 64 (w.toNat + 2 * o.toNat + 4 * e.toNat + 8 * m.toNat) := by decide

/-- R112: bits 0 to 3 of the value are the four flags, and the rest are 0. -/
theorem statusReg_setWidth (s : State) : (statusReg s).setWidth 64 =
    BitVec.ofNat 64 (s.warn.toNat + 2 * s.ovf.toNat + 4 * s.err.toNat + 8 * s.matchFlag.toNat) := by
  rw [statusReg_eq_statByte, statByte_setWidth]

/-! ## Write one to clear -/

/-- R113: a flag is cleared where its bit of the operand is 1, and kept elsewhere. -/
theorem and_not_operandClearMask (flag : Bool) (d : Word) {i : Nat} (hi : i < 3) :
    (flag && !(operandClearMask d).getLsbD i) = if d.getLsbD i then false else flag := by
  have hbit : (operandClearMask d).getLsbD i = d.getLsbD i := by simp [hi]
  rw [hbit]
  cases d.getLsbD i <;> simp

/-- The mask of `CLR_FLAGS` is the three low bits of the operand; `match` has none. -/
theorem clearFlags_operandClearMask (d : Word) (s : State) : clearFlags (operandClearMask d) s = { s with
    warn := if d.getLsbD 0 then false else s.warn
    ovf := if d.getLsbD 1 then false else s.ovf
    err := if d.getLsbD 2 then false else s.err } := by
  rw [clearFlags, and_not_operandClearMask _ d (by decide), and_not_operandClearMask _ d (by decide),
    and_not_operandClearMask _ d (by decide)]

/-- Status and value are those of the flags after the clearing. -/
theorem exec_clrFlags (d : Word) (s : State) : exec (.clrFlags d) s =
    complete [] ((statusReg (clearFlags (operandClearMask d) s)).setWidth 64) (clearFlags (operandClearMask d) s) := rfl

/-! ## The obligations -/

/-- Settles O14: nothing is raised and nothing written. -/
theorem nopResult : Obligations.NopResult := ⟨decode_opcodeWord .nop, complete_nil 0#64⟩

/-- Settles O15: the value is `STATUS`, read without a write. -/
theorem rdStatusResult : Obligations.RdStatusResult :=
  ⟨decode_opcodeWord .rdStatus, fun s => by rw [← statusReg_setWidth]; exact complete_nil _ s⟩

/-- Settles O16: the response is sampled in the state after the clearing. -/
theorem clrFlagsResult : Obligations.ClrFlagsResult := by
  refine ⟨decode_opcodeWord .clrFlags, fun d s => ?_⟩
  rw [exec_clrFlags, complete_nil, statusReg_setWidth, clearFlags_operandClearMask]
  rfl

/-- Settles O17: `plen` is read without a write. -/
theorem rdPlenResult : Obligations.RdPlenResult :=
  ⟨decode_opcodeWord .rdPlen, fun s => by rw [BitVec.ofNat_toNat]; exact complete_nil _ s⟩

end Sys2Proof.Proofs
end

section
/-!
PROOFS. Completion (spec 60_exceptions.md R117): no command faults or is refused, and none goes without a response. Every execution, of a
legal command and of an illegal one, ends in `complete`; a step is one execution, the reset, or idle.
-/

namespace Sys2Proof.Proofs

open Sys2Proof.Machine Sys2Proof.Safety

/-! ## One execution -/

/-- The outcome is a next state with a response on the port. -/
def AnswersResponse (o : Host.Outcome State Fault Refusal) : Prop := ∃ t r, o = .next t ∧ t.resp = some r

theorem complete_answersResponse (events : List Event) (v : Word) (s : State) : AnswersResponse (complete events v s) :=
  ⟨respond events v s, _, rfl, respond_resp events v s⟩

/-- R67: in range or not, appended or refused, an encode answers its field. -/
theorem encodeAndAppend_answersResponse {w : Nat} (e : Encoded w) (na : Bool) (s : State) :
    AnswersResponse (encodeAndAppend e na s) :=
  ⟨_, _, encodeAndAppend_eq e na s, rfl⟩

theorem illegalCommand_answersResponse (why : DecodeError) (s : State) : AnswersResponse (illegalCommand why s) :=
  complete_answersResponse [.illegalCommand] 0#64 (raiseEvent .illegalCommand s)

/-- The encodes, the verdict of the checker, and the commands whose meaning is one `complete`. -/
theorem exec_answersResponse (i : Instr) (s : State) : AnswersResponse (exec i s) := by
  cases i with
  | encU na w d => exact encodeAndAppend_answersResponse (encU (operandUnsigned d) w) na s
  | encS na w d => exact encodeAndAppend_answersResponse (encS (operandSigned d) w) na s
  | encSM na w d => exact encodeAndAppend_answersResponse (encSM (operandSigned d) w) na s
  | chkResult => exact ⟨_, _, exec_chkResult s, rfl⟩
  | nop | rdStatus | clrFlags | rdPlen | decU | decS | decSM | crcInit | crcByte | crcRd | payClr | buildFrame |
    chkStart | chkByte => exact complete_answersResponse _ _ _

/-! ## One step, by the head of the port -/

theorem step_of_pending_nil {s : State} (h : s.pending = []) : step s = .next s := by
  rw [step, takeAction_nil h]
  rfl

theorem step_of_pending_reset {s : State} {rest : List HostAction} (h : s.pending = .reset :: rest) :
    step s = .next (assertReset { s with pending := rest }) := by
  rw [step, takeAction_cons h]

/-- R50, R54: a word either decodes, and its command is executed, or it is illegal; both answer. -/
theorem step_answersResponse {s : State} {c : Command} {rest : List HostAction} (h : s.pending = .command c :: rest) :
    AnswersResponse (step s) := by
  rw [step, takeAction_cons h]
  cases hdec : decode c with
  | ok i => simpa only [hdec] using exec_answersResponse i { s with pending := rest }
  | error why => simpa only [hdec] using illegalCommand_answersResponse why { s with pending := rest }

/-- Settles O10: the port is empty, or its head is the reset input or a command; only a command owes a response. -/
theorem everyCommandCompletesWithAResponse : Obligations.EveryCommandCompletesWithAResponse := by
  refine ⟨fun s => ?_, exec_answersResponse⟩
  match hport : s.pending with
  | [] => exact ⟨s, step_of_pending_nil hport, by simp⟩
  | .reset :: rest => exact ⟨_, step_of_pending_reset hport, by simp⟩
  | .command c :: rest =>
    obtain ⟨t, r, hstep, hresp⟩ := step_answersResponse hport
    exact ⟨t, hstep, fun _ _ _ => ⟨r, hresp⟩⟩

end Sys2Proof.Proofs
end

section
/-!
PROOFS. Encoder and decoder undo each other (spec 30_encoding.md R47, R48, R50, R51), through the word of an opcode, a flag and a width on
the one side and `assembleOp` on the other.
-/

namespace Sys2Proof.Proofs

/-! ## Decode of encode -/

/-- The classes WE and WD go through flag and width; the words of the classes Z and D have every bit below the opcode 0. -/
theorem decode_encode {i : Instr} (hi : wellFormed i = true) : decode (encode i) = .ok i := by
  cases i with
  | encU na w d => exact decode_cmdWordOf (o := .encU) d (of_decide_eq_true hi) rfl fun _ => rfl
  | encS na w d => exact decode_cmdWordOf (o := .encS) d (of_decide_eq_true hi) rfl fun _ => rfl
  | encSM na w d => exact decode_cmdWordOf (o := .encSM) d (of_decide_eq_true hi) rfl fun _ => rfl
  | decU w d => exact decode_cmdWordOf (o := .decU) d (of_decide_eq_true hi) rfl fun h => absurd h (by decide)
  | decS w d => exact decode_cmdWordOf (o := .decS) d (of_decide_eq_true hi) rfl fun h => absurd h (by decide)
  | decSM w d => exact decode_cmdWordOf (o := .decSM) d (of_decide_eq_true hi) rfl fun h => absurd h (by decide)
  | clrFlags d => exact decode_opcodeWord .clrFlags d
  | crcByte d => exact decode_opcodeWord .crcByte d
  | chkByte d => exact decode_opcodeWord .chkByte d
  | nop => exact decode_opcodeWord .nop 0
  | rdStatus => exact decode_opcodeWord .rdStatus 0
  | rdPlen => exact decode_opcodeWord .rdPlen 0
  | crcInit => exact decode_opcodeWord .crcInit 0
  | crcRd => exact decode_opcodeWord .crcRd 0
  | payClr => exact decode_opcodeWord .payClr 0
  | buildFrame => exact decode_opcodeWord .buildFrame 0
  | chkStart => exact decode_opcodeWord .chkStart 0
  | chkResult => exact decode_opcodeWord .chkResult 0

/-- Settles O1: `decode_encode` is the statement. -/
theorem encodedCommandDecodesToItself : Obligations.EncodedCommandDecodesToItself := fun _ hi => decode_encode hi

/-! ## Encode of decode -/

/-- R51: every field `wm1` is a legal width. -/
theorem widthOk_widthOfField (wm1 : BitVec 6) : WidthOk (widthOfField wm1) := by
  have := wm1.isLt
  rw [widthOk_iff, widthOfField]
  omega

@[simp] theorem fieldOfWidth_widthOfField (wm1 : BitVec 6) : fieldOfWidth (widthOfField wm1) = wm1 := by
  rw [fieldOfWidth, widthOfField, Nat.add_sub_cancel, BitVec.ofNat_toNat, BitVec.setWidth_eq]

theorem wellFormed_assembleOp (o : Op) (na : Bool) {w : Nat} (d : Word) (hw : WidthOk w) :
    wellFormed (assembleOp o na w d) = true := by
  cases o with
  | encU | encS | encSM | decU | decS | decSM => exact decide_eq_true hw
  | nop | rdStatus | clrFlags | rdPlen | crcInit | crcByte | crcRd | payClr | buildFrame | chkStart | chkByte |
    chkResult => rfl

@[simp] theorem withData_assembleOp (o : Op) (na : Bool) (w : Nat) (d d' : Word) :
    withData (assembleOp o na w d) d' = assembleOp o na w d' := by cases o <;> rfl

/-- A word's fields, put together again, are the word, bit 6 being 0. -/
theorem cmdWordOf_of_fields {o : Op} {w : CmdWord} (hop : opField w = o.code) (hres : reservedField w = false) :
    cmdWordOf o (naField w) (wm1Field w) = w := by
  have hlow : ∀ b : BitVec 8, b.getLsbD 6 = false →
      (BitVec.ofBool (b.getLsbD 7) ++ 0#1 ++ b.extractLsb' 0 6 : BitVec 8) = b := by decide
  have hna : (w.extractLsb' 0 8).getLsbD 7 = naField w := by simp [naField]
  have hbit6 : (w.extractLsb' 0 8).getLsbD 6 = false := by rw [← hres]; simp [reservedField]
  have hwm1 : (w.extractLsb' 0 8).extractLsb' 0 6 = wm1Field w := by simp [wm1Field]
  have hlow' := hlow (w.extractLsb' 0 8) hbit6
  rw [hna, hwm1] at hlow'
  calc cmdWordOf o (naField w) (wm1Field w)
      = o.code ++ (BitVec.ofBool (naField w) ++ 0#1 ++ wm1Field w : BitVec 8) := by
        simp only [cmdWordOf, BitVec.append_assoc, BitVec.cast_eq]
    _ = opField w ++ w.extractLsb' 0 8 := by rw [hlow', hop]
    _ = w := BitVec.extractLsb'_append_extractLsb'

/-- The command assembled from an opcode and the fields its class uses has these fields in its word. -/
theorem encode_assembleOp_cmd {o : Op} {na : Bool} {wm1 : BitVec 6} (d : Word)
    (hna : na = true → o.formatClass.usesNa = true) (hwidth : wm1 ≠ 0#6 → o.formatClass.usesWidth = true) :
    (encode (assembleOp o na (widthOfField wm1) d)).cmd = cmdWordOf o na wm1 := by
  have hna' : o.formatClass.usesNa = false → na = false := fun h => by simpa [h] using hna
  have hwidth' : o.formatClass.usesWidth = false → wm1 = 0#6 := fun h => by simpa [h] using hwidth
  cases o with
  | encU | encS | encSM => simp [assembleOp, encode]
  | decU | decS | decSM =>
    obtain rfl := hna' rfl
    simp [assembleOp, encode]
  | nop | rdStatus | clrFlags | rdPlen | crcInit | crcByte | crcRd | payClr | buildFrame | chkStart | chkByte |
    chkResult =>
    obtain rfl := hna' rfl
    obtain rfl := hwidth' rfl
    rfl

/-- R50: what the decoder answers, in terms of the word's fields, which its class allows. -/
theorem eq_assembleOp_of_decode {c : Command} {i : Instr} (h : decode c = .ok i) :
    i = assembleOp (opOf i) (naField c.cmd) (widthOfField (wm1Field c.cmd)) c.data :=
  Except.ok.inj (h.symm.trans (decode_of_legalAs (legalAs_of_decode h)))

theorem encode_decode {c : Command} {i : Instr} (h : decode c = .ok i) :
    wellFormed i = true ∧ (encode i).cmd = c.cmd ∧ withData i c.data = i := by
  obtain ⟨hop, hres, hna, hwidth⟩ := legalAs_of_decode h
  rw [eq_assembleOp_of_decode h]
  exact ⟨wellFormed_assembleOp _ _ _ (widthOk_widthOfField _),
    (encode_assembleOp_cmd _ hna hwidth).trans (cmdWordOf_of_fields hop hres), withData_assembleOp ..⟩

/-- No test of the decoder reads the operand; it passes into the command unread. -/
theorem decode_withData (w : CmdWord) (d d' : Word) :
    decode ⟨w, d'⟩ = (decode ⟨w, d⟩).map (withData · d') := by
  unfold decode
  cases opOfCode (opField w) with
  | none => rfl
  | some o =>
    dsimp only
    split_ifs <;> simp [Except.map]

/-- Settles O2: `encode_decode`, and `decode_withData` for both kinds of answer. -/
theorem decodedCommandEncodesToItsWord : Obligations.DecodedCommandEncodesToItsWord :=
  ⟨fun _ _ h => encode_decode h, fun w d d' =>
    ⟨fun i h => by rw [decode_withData w d d', h]; rfl, fun e h => by rw [decode_withData w d d', h]; rfl⟩⟩

/-- Settles O5: the decoder evaluates each word. -/
theorem specWordsDecode : Obligations.SpecWordsDecode := by
  unfold Obligations.SpecWordsDecode
  decide

end Sys2Proof.Proofs
end

section
/-!
PROOFS. The step by the head of the port (spec 30_encoding.md R50, R54), the elements a command writes (10_state.md R13), and that no
command reads a port (R14). The rule of the writers is the frame from which later proofs take what a command leaves unchanged.
-/

namespace Sys2Proof.Proofs

open Sys2Proof.Machine Sys2Proof.Safety

/-! ## The step -/

theorem step_of_command {s : State} {c : Command} {rest : List HostAction} {i : Instr}
    (hport : s.pending = .command c :: rest) (hdec : decode c = .ok i) : step s = exec i { s with pending := rest } := by
  simp only [step, takeAction_cons hport, hdec]

theorem step_of_illegal {s : State} {c : Command} {rest : List HostAction} {e : DecodeError}
    (hport : s.pending = .command c :: rest) (hdec : decode c = .error e) :
    step s = illegalCommand e { s with pending := rest } := by
  simp only [step, takeAction_cons hport, hdec]

/-- Everything a step can be: idle, the reset, a command's execution, or an illegal command. -/
theorem step_cases {s t : State} (h : step s = .next t) :
    t = s ∨
    (∃ rest, s.pending = .reset :: rest ∧ t = assertReset { s with pending := rest }) ∨
    (∃ c rest i, s.pending = .command c :: rest ∧ decode c = .ok i ∧ exec i { s with pending := rest } = .next t) ∨
    ∃ rest e, illegalCommand e { s with pending := rest } = .next t := by
  match hport : s.pending with
  | [] =>
    rw [step_of_pending_nil hport] at h
    cases h
    exact .inl rfl
  | .reset :: rest =>
    rw [step_of_pending_reset hport] at h
    cases h
    exact .inr (.inl ⟨rest, rfl, rfl⟩)
  | .command c :: rest =>
    cases hdec : decode c with
    | ok i => exact .inr (.inr (.inl ⟨c, rest, i, rfl, hdec, (step_of_command hport hdec).symm.trans h⟩))
    | error e => exact .inr (.inr (.inr ⟨rest, e, (step_of_illegal hport hdec).symm.trans h⟩))

/-- Settles O6: the three kinds of action at the head of the port. -/
theorem stepRunsDecodedCommand : Obligations.StepRunsDecodedCommand :=
  ⟨fun _ _ _ _ => step_of_command, fun _ _ _ _ => step_of_illegal, fun _ _ => step_of_pending_reset⟩

/-- Settles O7: with nothing on the port the step is `idle`. -/
theorem idleBlockKeepsItsState : Obligations.IdleBlockKeepsItsState := fun _ => step_of_pending_nil

/-- Settles O9: each value is read off `State.reset`. -/
theorem resetStateValues : Obligations.ResetStateValues :=
  ⟨rfl, rfl, rfl, rfl, rfl, rfl, rfl, rfl, rfl, rfl, rfl, rfl⟩

/-! ## The writers of each element -/

/-- R13's column "written by" for command `i`, from `s` to `t`. -/
def WritersRule (i : Instr) (s t : State) : Prop :=
  (t.crc ≠ s.crc → opOf i ∈ [.crcInit, .crcByte, .buildFrame]) ∧
  (t.pbuf ≠ s.pbuf ∨ t.plen ≠ s.plen → opOf i = .payClr ∨ ∃ k w d, i = encodeInstr k false w d) ∧
  (t.out ≠ s.out → opOf i = .buildFrame) ∧
  (t.warn ≠ s.warn → opOf i ∈ [.encU, .encS, .encSM, .clrFlags]) ∧
  (t.ovf ≠ s.ovf → opOf i = .clrFlags ∨ ∃ k w d, i = encodeInstr k false w d) ∧
  (t.err ≠ s.err → opOf i = .clrFlags) ∧
  (t.matchFlag ≠ s.matchFlag → opOf i ∈ [.chkResult, .chkStart]) ∧
  (t.rcrc ≠ s.rcrc ∨ t.hold ≠ s.hold ∨ t.rcnt ≠ s.rcnt → opOf i ∈ [.chkStart, .chkByte]) ∧
  t.pending = s.pending

theorem opOf_encodeInstr_mem (k : FieldKind) (na : Bool) (w : Nat) (d : Word) :
    opOf (encodeInstr k na w d) ∈ [.encU, .encS, .encSM, .clrFlags] := by
  cases k <;> simp [opOf, encodeInstr]

/-- An encode writes `warn`, and, where it appends, buffer and `ovf`. -/
theorem writersRule_of_encode (k : FieldKind) {na : Bool} {w : Nat} {d : Word} {e : Encoded w} {s t : State}
    (h : encodeAndAppend e na s = .next t) : WritersRule (encodeInstr k na w d) s t := by
  rw [encodeAndAppend_eq] at h
  cases h
  refine ⟨by simp, ?_, by simp, fun _ => opOf_encodeInstr_mem k na w d, ?_, by simp, by simp, by simp, rfl⟩
  · cases na with
    | true => simp
    | false => exact fun _ => .inr ⟨k, w, d, rfl⟩
  · cases na with
    | true => simp
    | false => exact fun _ => .inr ⟨k, w, d, rfl⟩

theorem exec_writersRule {i : Instr} {s t : State} (h : exec i s = .next t) : WritersRule i s t := by
  cases i with
  | encU na w d => exact writersRule_of_encode .u h
  | encS na w d => exact writersRule_of_encode .s h
  | encSM na w d => exact writersRule_of_encode .sm h
  | buildFrame =>
    rw [exec_buildFrame] at h
    cases h
    simp [WritersRule, opOf]
  | chkResult =>
    rw [exec_chkResult] at h
    cases h
    simp [WritersRule, opOf]
  | nop | rdStatus | clrFlags | rdPlen | decU | decS | decSM | crcInit | crcByte | crcRd | payClr | chkStart | chkByte =>
    obtain rfl := complete_next_iff.mp h
    simp [WritersRule, opOf]

/-- Settles O56: `WritersRule` is the statement's conclusion. -/
theorem onlyTheListedWritersWrite : Obligations.OnlyTheListedWritersWrite := fun _ _ _ h => exec_writersRule h

theorem exec_pending {i : Instr} {s t : State} (h : exec i s = .next t) : t.pending = s.pending := by
  obtain ⟨_, _, _, _, _, _, _, _, hpending⟩ := exec_writersRule h
  exact hpending

/-! ## The ports -/

theorem complete_with_ports {events : List Event} {v : Word} {s t : State} (r : Option Response) (p : List HostAction)
    (h : complete events v s = .next t) :
    complete events v { s with resp := r, pending := p } = .next { t with pending := p } := by
  obtain rfl := complete_next_iff.mp h
  rfl

theorem encodeAndAppend_with_ports {w : Nat} {e : Encoded w} {na : Bool} {s t : State} (r : Option Response)
    (p : List HostAction) (h : encodeAndAppend e na s = .next t) :
    encodeAndAppend e na { s with resp := r, pending := p } = .next { t with pending := p } := by
  rw [encodeAndAppend_eq] at h ⊢
  cases h
  rfl

/-- The response port is written at the end, and what the host does next is passed on. -/
theorem exec_with_ports {i : Instr} {s t : State} (r : Option Response) (p : List HostAction) (h : exec i s = .next t) :
    exec i { s with resp := r, pending := p } = .next { t with pending := p } := by
  cases i with
  | encU => exact encodeAndAppend_with_ports r p h
  | encS => exact encodeAndAppend_with_ports r p h
  | encSM => exact encodeAndAppend_with_ports r p h
  | buildFrame =>
    rw [exec_buildFrame] at h ⊢
    obtain rfl := Host.Outcome.next.inj h
    dsimp only [plainStat]
  | chkResult =>
    rw [exec_chkResult] at h ⊢
    cases h
    rfl
  | nop | rdStatus | clrFlags | rdPlen | decU | decS | decSM | crcInit | crcByte | crcRd | payClr | chkStart | chkByte =>
    exact complete_with_ports r p h

/-- Settles O59: `exec_with_ports` is the statement. -/
theorem portsAreNotRead : Obligations.PortsAreNotRead := fun _ _ _ r p h => exec_with_ports r p h

end Sys2Proof.Proofs
end

section
/-!
PROOFS. The payload buffer under every command (spec 10_state.md R15, R17): it is emptied by `PAY_CLR`, grows by a whole field under an
appending encode, and stays under the rest. The three encodes are taken as one, by the kind of the field.
-/

namespace Sys2Proof.Proofs

open Sys2Proof.Machine Sys2Proof.Safety

/-! ## The encodes by kind -/

/-- What `ENC_k W, d` makes of its operand (40_bitfield.md R68 to R70). -/
def encodedOf (k : FieldKind) (w : Nat) (d : Word) : Encoded w :=
  match k with
  | .u => encU (operandUnsigned d) w
  | .s => encS (operandSigned d) w
  | .sm => encSM (operandSigned d) w

theorem exec_encodeInstr (k : FieldKind) (na : Bool) (w : Nat) (d : Word) (s : State) :
    exec (encodeInstr k na w d) s = encodeAndAppend (encodedOf k w d) na s := by cases k <;> rfl

theorem fieldBits_eq (f : FieldSpec) : fieldBits f = str (encodedOf f.kind f.width f.value).f := by
  cases h : f.kind <;> simp [fieldBits, h, encodedOf]

theorem outOfRange_encodeInstr (k : FieldKind) (na : Bool) (w : Nat) (d : Word) :
    outOfRange (encodeInstr k na w d) = !(encodedOf k w d).inr := by
  cases k with
  | u => exact outOfRange_encU na w d
  | s => exact outOfRange_encS na w d
  | sm => exact outOfRange_encSM na w d

/-- R32: a field that fits is behind the buffer whole, with `plen` advanced by its width. -/
theorem encode_appends {w : Nat} {e : Encoded w} {s t : State} (hfit : s.plen.toNat + w ≤ 8184)
    (h : encodeAndAppend e false s = .next t) : t.pbuf = s.pbuf ++ str e.f ∧ t.plen.toNat = s.plen.toNat + w := by
  have hfits : appendFits w s = true := decide_eq_true hfit
  rw [encodeAndAppend_eq] at h
  cases h
  simp only [hfits, Bool.not_false, Bool.and_self, if_true, BitVec.toNat_ofNat, true_and]
  omega

/-- R32, R67: the field is appended, or buffer and `plen` stay. -/
theorem encode_payload_cases {w : Nat} {e : Encoded w} {na : Bool} {s t : State}
    (h : encodeAndAppend e na s = .next t) :
    (t.pbuf = s.pbuf ∧ t.plen = s.plen) ∨
    (na = false ∧ s.plen.toNat + w ≤ 8184 ∧ t.pbuf = s.pbuf ++ str e.f ∧ t.plen.toNat = s.plen.toNat + w) := by
  by_cases happends : na = false ∧ s.plen.toNat + w ≤ 8184
  · obtain ⟨rfl, hfit⟩ := happends
    exact .inr ⟨rfl, hfit, encode_appends hfit h⟩
  · have hstays : (!na && appendFits w s) = false := by simpa [appendFits] using happends
    rw [encodeAndAppend_eq] at h
    cases h
    exact .inl (by simp [hstays])

/-! ## Every command -/

theorem eq_payClr_of_opOf {i : Instr} (h : opOf i = .payClr) : i = .payClr := by
  cases i <;> simp_all [opOf]

theorem exec_payClr (s : State) : exec .payClr s = .next { s with
    pbuf := [], plen := 0#14, resp := some ⟨plainStat s, 0#64⟩ } :=
  complete_nil 0#64 (clearPayload s)

/-- Everything a command can do to the payload buffer. -/
theorem exec_payload_cases {i : Instr} {s t : State} (h : exec i s = .next t) :
    (t.pbuf = s.pbuf ∧ t.plen = s.plen) ∨
    (i = .payClr ∧ t.pbuf = [] ∧ t.plen = 0#14) ∨
    ∃ k w d, i = encodeInstr k false w d ∧ s.plen.toNat + w ≤ 8184 ∧ t.pbuf = s.pbuf ++ str (encodedOf k w d).f ∧
      t.plen.toNat = s.plen.toNat + w := by
  obtain ⟨_, hpayload, _⟩ := exec_writersRule h
  by_cases hchange : t.pbuf ≠ s.pbuf ∨ t.plen ≠ s.plen
  · obtain hop | ⟨k, w, d, rfl⟩ := hpayload hchange
    · obtain rfl := eq_payClr_of_opOf hop
      rw [exec_payClr] at h
      cases h
      exact .inr (.inl ⟨rfl, rfl, rfl⟩)
    · rw [exec_encodeInstr] at h
      obtain hsame | ⟨_, hfit, hpbuf, hplen⟩ := encode_payload_cases h
      · exact .inl hsame
      · exact .inr (.inr ⟨k, w, d, rfl, hfit, hpbuf, hplen⟩)
  · simpa [not_or] using Or.inl hchange

/-- The canonical form of R17, R18 is kept by every command. -/
theorem exec_wf {i : Instr} {s t : State} (h : exec i s = .next t) (hs : Memory.wf s.pbuf s.plen = true) :
    Memory.wf t.pbuf t.plen = true := by
  rw [wf_iff] at hs ⊢
  obtain ⟨hpbuf, hplen⟩ | ⟨_, hpbuf, hplen⟩ | ⟨k, w, d, _, hfit, hpbuf, hplen⟩ := exec_payload_cases h
  · rwa [hpbuf, hplen]
  · rw [hpbuf, hplen]
    decide
  · rw [hpbuf, hplen, List.length_append, str_length]
    omega

/-- Settles O22: the three cases of `exec_payload_cases`; the reset clears, and an illegal command and an idle block keep `plen`. -/
theorem plenMovesByWholeFields : Obligations.PlenMovesByWholeFields := by
  intro s t h
  obtain rfl | ⟨rest, hport, rfl⟩ | ⟨c, rest, i, hport, hdec, hexec⟩ | ⟨rest, e, hillegal⟩ := step_cases h
  · exact .inl rfl
  · exact .inr (.inl ⟨rfl, rest, .inl hport⟩)
  · obtain ⟨_, hplen⟩ | ⟨rfl, _, hplen⟩ | ⟨k, w, d, rfl, _, _, hplen⟩ := exec_payload_cases hexec
    · exact .inl hplen
    · exact .inr (.inl ⟨hplen, rest, .inr ⟨c, hport, hdec⟩⟩)
    · exact .inr (.inr ⟨c, rest, k, w, d, hport, hdec, hplen⟩)
  · rw [illegalCommand_frame hillegal]
    exact .inl rfl

end Sys2Proof.Proofs
end

section
/-!
PROOFS. The output stream and the invariant (spec 10_state.md R19, R29): `out` grows by whole frames under `BUILD_FRAME` alone, the payload
memory keeps its form, and the other two parts of the invariant hold of every state.
-/

namespace Sys2Proof.Proofs

open Sys2Proof.Machine Sys2Proof.Safety

/-! ## The output stream -/

/-- R99: the beats of a built frame are a whole frame. -/
theorem isFrame_beatsOf_buildFrame {p : List Bool} (hp : p.length ≤ 8184) : IsFrame (beatsOf (buildFrame p)) :=
  ⟨⟨p, hp, beatsOf_bytes _⟩, beatsOf_buildFrame p⟩

theorem eq_buildFrame_of_opOf {i : Instr} (h : opOf i = .buildFrame) : i = .buildFrame := by
  cases i <;> simp_all [opOf]

theorem exec_out_cases {i : Instr} {s t : State} (h : exec i s = .next t) :
    t.out = s.out ∨ (i = .buildFrame ∧ t.out = s.out ++ beatsOf (buildFrame s.pbuf)) := by
  obtain ⟨_, _, hout, _⟩ := exec_writersRule h
  refine or_iff_not_imp_left.mpr fun hchange => ?_
  obtain rfl := eq_buildFrame_of_opOf (hout hchange)
  rw [exec_buildFrame] at h
  obtain rfl := Host.Outcome.next.inj h
  exact ⟨rfl, rfl⟩

/-- Settles O57: `exec_out_cases`; the reset, an illegal command and an idle block keep `out`. -/
theorem outGrowsByWholeFramesOnly : Obligations.OutGrowsByWholeFramesOnly := by
  intro s t hwf h
  obtain ⟨hlen, hmax⟩ := (wf_iff _ _).mp hwf
  obtain rfl | ⟨rest, _, rfl⟩ | ⟨c, rest, i, hport, hdec, hexec⟩ | ⟨rest, e, hillegal⟩ := step_cases h
  · exact .inl rfl
  · exact .inl rfl
  · obtain hout | ⟨rfl, hout⟩ := exec_out_cases hexec
    · exact .inl hout
    · exact .inr ⟨c, rest, _, hport, hdec, hout, isFrame_beatsOf_buildFrame (hlen ▸ hmax)⟩
  · rw [illegalCommand_frame hillegal]
    exact .inl rfl

/-! ## The invariant -/

/-- R29, last part: a concatenation of whole frames. -/
def WholeFrames (out : List Beat) : Prop :=
  ∃ frames : List (List Beat), out = frames.flatten ∧ ∀ fr ∈ frames, IsFrame fr

theorem wholeFrames_append {out fr : List Beat} (hout : WholeFrames out) (hfr : IsFrame fr) : WholeFrames (out ++ fr) := by
  obtain ⟨frames, rfl, hframes⟩ := hout
  refine ⟨frames ++ [fr], by simp, fun x hx => ?_⟩
  obtain hx | hx := List.mem_append.mp hx
  · exact hframes x hx
  · rwa [List.mem_singleton.mp hx]

/-- Two bits count to 3, and the upper half of `STATUS` is wired to 0, so only memory and stream need care. -/
theorem inv_iff (s : State) : Inv s ↔ Memory.wf s.pbuf s.plen = true ∧ WholeFrames s.out := by
  have hrcnt : s.rcnt.toNat ≤ 3 := Nat.le_of_lt_succ s.rcnt.isLt
  obtain ⟨_, _, _, _, hupper⟩ := statusReg_bits s
  exact ⟨fun ⟨hwf, _, _, hout⟩ => ⟨hwf, hout⟩, fun ⟨hwf, hout⟩ => ⟨hwf, hrcnt, hupper, hout⟩⟩

theorem exec_keeps_inv {i : Instr} {s t : State} (h : exec i s = .next t) (hs : Inv s) : Inv t := by
  rw [inv_iff] at hs ⊢
  obtain ⟨hwf, hframes⟩ := hs
  obtain ⟨hlen, hmax⟩ := (wf_iff _ _).mp hwf
  refine ⟨exec_wf h hwf, ?_⟩
  obtain hout | ⟨_, hout⟩ := exec_out_cases h
  · rwa [hout]
  · rw [hout]
    exact wholeFrames_append hframes (isFrame_beatsOf_buildFrame (hlen ▸ hmax))

/-- R126: the reset input clears the memory and keeps what has been emitted. -/
theorem assertReset_keeps_inv {s : State} (hs : Inv s) : Inv (assertReset s) := by
  rw [inv_iff] at hs ⊢
  exact ⟨assertReset_wf s, hs.2⟩

/-- R54: an illegal command touches neither memory nor stream. -/
theorem illegalCommand_keeps_inv {e : DecodeError} {s t : State} (h : illegalCommand e s = .next t) (hs : Inv s) : Inv t := by
  rw [illegalCommand_frame h, inv_iff]
  exact (inv_iff s).mp hs

/-- What the host does next is no part of the invariant. -/
theorem inv_with_pending {s : State} (p : List HostAction) (hs : Inv s) : Inv { s with pending := p } := hs

/-- Settles O54: memory and stream are empty. -/
theorem invariantHoldsAtReset : Obligations.InvariantHoldsAtReset := (inv_iff _).mpr ⟨reset_wf, [], rfl, by simp⟩

/-- Settles O55: each kind of step keeps it. -/
theorem everyStepKeepsTheInvariant : Obligations.EveryStepKeepsTheInvariant := by
  intro s t hs h
  obtain rfl | ⟨rest, _, rfl⟩ | ⟨_, rest, _, _, _, hexec⟩ | ⟨rest, _, hillegal⟩ := step_cases h
  · exact hs
  · exact assertReset_keeps_inv (inv_with_pending rest hs)
  · exact exec_keeps_inv hexec (inv_with_pending rest hs)
  · exact illegalCommand_keeps_inv hillegal (inv_with_pending rest hs)

end Sys2Proof.Proofs
end

section
/-!
PROOFS. The checker law (spec 42_frame.md R103) and the commutation of the checker with the other units (70_reset_and_hazards.md R134). The
delay line `hold` is read as a number: up to three bytes by their weights.
-/

namespace Sys2Proof.Proofs

open Sys2Proof.Machine Sys2Proof.Safety

/-! ## The delay line -/

/-- The bytes shifted into an empty `hold`, in order. -/
def holdOf (bs : List Byte) : BitVec 24 := bs.foldl (fun (h : BitVec 24) (b : Byte) => h <<< 8 ||| b.setWidth 24) 0#24

theorem shift_in_byte_eq_ofNat (h : BitVec 24) (b : Byte) :
    h <<< 8 ||| b.setWidth 24 = BitVec.ofNat 24 (h.toNat * 256 + b.toNat) := by
  have hb := b.isLt
  have hop : operandByte (b.setWidth 64) = b := by simp [operandByte_eq_setWidth]
  have hmod : (b.setWidth 64).toNat % 256 = b.toNat := by
    rw [BitVec.toNat_setWidth]
    omega
  have := shift_in_byte h (b.setWidth 64)
  rwa [hop, hmod] at this

theorem holdOf_snoc (bs : List Byte) (b : Byte) :
    holdOf (bs ++ [b]) = BitVec.ofNat 24 ((holdOf bs).toNat * 256 + b.toNat) := by
  rw [← shift_in_byte_eq_ofNat, holdOf, List.foldl_append]
  rfl

/-- A full `hold` by the weights of its bytes. -/
theorem holdOf_three_toNat (x y z : Byte) : (holdOf [x, y, z]).toNat = x.toNat * 65536 + y.toNat * 256 + z.toNat := by
  have hx := x.isLt
  have hy := y.isLt
  have hz := z.isLt
  have hone : (holdOf [x]).toNat = x.toNat := by
    have hnone : (holdOf []).toNat = 0 := rfl
    rw [← List.nil_append [x], holdOf_snoc, hnone, BitVec.toNat_ofNat]
    omega
  have htwo : (holdOf [x, y]).toNat = x.toNat * 256 + y.toNat := by
    rw [← List.singleton_append, holdOf_snoc, hone, BitVec.toNat_ofNat]
    omega
  have hlist : [x, y, z] = [x, y] ++ [z] := rfl
  rw [hlist, holdOf_snoc, htwo, BitVec.toNat_ofNat]
  omega

/-- R35: a CRC on the wire, shifted in, is the CRC. -/
theorem eq_holdOf_iff (c : Crc) (x y z : Byte) : c = holdOf [x, y, z] ↔ threeBytes c = [x, y, z] := by
  have hc := c.isLt
  have hx := x.isLt
  have hy := y.isLt
  have hz := z.isLt
  rw [threeBytes_eq, ← BitVec.toNat_inj, holdOf_three_toNat]
  simp only [List.cons.injEq, and_true, ← BitVec.toNat_inj, BitVec.toNat_ofNat]
  omega

/-- A sequence of three or more bytes ends in three bytes. -/
theorem exists_append_three {bs : List Byte} (h : 3 ≤ bs.length) : ∃ m x y z, bs = m ++ [x, y, z] := by
  have hlen : (bs.drop (bs.length - 3)).length = 3 := by
    rw [List.length_drop]
    omega
  obtain ⟨x, y, z, hlast⟩ := List.length_eq_three.mp hlen
  exact ⟨bs.take (bs.length - 3), x, y, z, by rw [← hlast, List.take_append_drop]⟩

/-! ## What the registers hold -/

theorem checkerHolds_iff_of_le {bs : List Byte} (h : bs.length ≤ 3) (s : State) :
    CheckerHolds bs s ↔ s.rcnt.toNat = bs.length ∧ s.rcrc = crc24q [] ∧ s.hold = holdOf bs := by
  have hnone : bs.length - 3 = 0 := by omega
  rw [CheckerHolds, hnone, min_eq_left h, List.take_zero, List.drop_zero]
  rfl

theorem checkerHolds_append_three (m : List Byte) (x y z : Byte) (s : State) :
    CheckerHolds (m ++ [x, y, z]) s ↔ s.rcnt.toNat = 3 ∧ s.rcrc = crc24q m ∧ s.hold = holdOf [x, y, z] := by
  simp [CheckerHolds, holdOf]

/-- Only the three registers take part. -/
theorem checkerHolds_of_same {bs : List Byte} {s t : State} (hrcrc : t.rcrc = s.rcrc) (hhold : t.hold = s.hold)
    (hrcnt : t.rcnt = s.rcnt) (h : CheckerHolds bs s) : CheckerHolds bs t := by
  rwa [CheckerHolds, hrcrc, hhold, hrcnt]

theorem crc24q_snoc (m : List Byte) (b : Byte) : crc24q (m ++ [b]) = crcByte (crc24q m) b := by
  rw [crc24q, List.foldl_append]
  rfl

/-! ## The commands of the checker -/

theorem exec_chkStart (s : State) : exec .chkStart s = .next { s with
    rcrc := 0x000000#24
    hold := 0x000000#24
    rcnt := 0#2
    matchFlag := false
    resp := some ⟨statByte s.warn s.ovf s.err false false false false, 0#64⟩ } :=
  complete_nil 0#64 (writeMatch false (writeChecker 0x000000#24 0#24 0#2 s))

/-- R101, `hold` not yet full: the byte is counted. -/
theorem chkByte_extends_of_lt {bs : List Byte} {s t : State} {d : Word} (hlen : bs.length < 3)
    (h : exec (.chkByte d) s = .next t) (hs : CheckerHolds bs s) : CheckerHolds (bs ++ [d.setWidth 8]) t := by
  obtain ⟨hrcnt, hrcrc, hhold⟩ := (checkerHolds_iff_of_le (by omega) s).mp hs
  have hd : d.toNat % 256 = (d.setWidth 8).toNat := by simp
  have hne : s.rcnt.toNat ≠ 3 := by omega
  have hlen' : (bs ++ [d.setWidth 8]).length = bs.length + 1 := List.length_append
  rw [exec_chkByte, hd] at h
  cases h
  rw [checkerHolds_iff_of_le (by omega), holdOf_snoc, hlen', ← hhold, ← hrcrc]
  simp only [hne, if_false, BitVec.toNat_ofNat, and_true]
  omega

/-- R101, `hold` full: the oldest of its three bytes leaves it for `rcrc`. -/
theorem chkByte_extends_append_three {m : List Byte} {x y z : Byte} {s t : State} {d : Word}
    (h : exec (.chkByte d) s = .next t) (hs : CheckerHolds (m ++ [x, y, z]) s) :
    CheckerHolds (m ++ [x, y, z] ++ [d.setWidth 8]) t := by
  obtain ⟨hrcnt, hrcrc, hhold⟩ := (checkerHolds_append_three m x y z s).mp hs
  have hx := x.isLt
  have hy := y.isLt
  have hz := z.isLt
  have hd : d.toNat % 256 = (d.setWidth 8).toNat := by simp
  have hlist : m ++ [x, y, z] ++ [d.setWidth 8] = (m ++ [x]) ++ [y, z, d.setWidth 8] := by simp
  have hout : BitVec.ofNat 8 (s.hold.toNat / 65536) = x := by
    rw [← BitVec.toNat_inj, hhold, holdOf_three_toNat, BitVec.toNat_ofNat]
    omega
  have hin : BitVec.ofNat 24 (s.hold.toNat * 256 + d.toNat % 256) = holdOf [y, z, d.setWidth 8] := by
    rw [← BitVec.toNat_inj, hhold, holdOf_three_toNat, holdOf_three_toNat, BitVec.toNat_ofNat, ← hd]
    omega
  rw [exec_chkByte] at h
  cases h
  rw [hlist, checkerHolds_append_three, crc24q_snoc]
  simp only [hrcnt, if_true, hout, hrcrc, hin, and_self]

theorem chkByte_extends {bs : List Byte} {s t : State} {d : Word} (h : exec (.chkByte d) s = .next t)
    (hs : CheckerHolds bs s) : CheckerHolds (bs ++ [d.setWidth 8]) t := by
  obtain hlen | hlen := Nat.lt_or_ge bs.length 3
  · exact chkByte_extends_of_lt hlen h hs
  · obtain ⟨m, x, y, z, rfl⟩ := exists_append_three hlen
    exact chkByte_extends_append_three h hs

/-- R102 against R96: fewer than three bytes fail both; else both compare the CRC of the rest with the last three. -/
theorem verdict_eq_checkFrame {bs : List Byte} {s : State} (hs : CheckerHolds bs s) :
    decide (s.rcnt.toNat = 3 ∧ s.rcrc = s.hold) = checkFrame bs := by
  by_cases hlen : bs.length < 3
  · obtain ⟨hrcnt, _, _⟩ := (checkerHolds_iff_of_le (by omega) s).mp hs
    rw [decide_eq_false (by omega), checkFrame, if_pos hlen]
  · obtain ⟨m, x, y, z, rfl⟩ := exists_append_three (Nat.le_of_not_lt hlen)
    obtain ⟨hrcnt, hrcrc, hhold⟩ := (checkerHolds_append_three m x y z s).mp hs
    rw [checkFrame_append, Bool.beq_eq_decide_eq, decide_eq_decide, ← eq_holdOf_iff, hrcrc, hhold]
    exact and_iff_right hrcnt

theorem chkResult_answers {bs : List Byte} {s : State} (hs : CheckerHolds bs s) :
    ∃ t, exec .chkResult s = .next t ∧ CheckerHolds bs t ∧ t.matchFlag = checkFrame bs ∧
      t.resp.map Response.value = some (BitVec.ofNat 64 (checkFrame bs).toNat) := by
  refine ⟨_, exec_chkResult s, checkerHolds_of_same rfl rfl rfl hs, verdict_eq_checkFrame hs, ?_⟩
  rw [← verdict_eq_checkFrame hs]
  rfl

/-! ## The other commands -/

/-- The four elements of the checker are in `t` what they are in `s`. -/
def SameChecker (s t : State) : Prop :=
  t.matchFlag = s.matchFlag ∧ t.rcrc = s.rcrc ∧ t.hold = s.hold ∧ t.rcnt = s.rcnt

theorem opOf_not_mem_of_not_isChecker {i : Instr} (hi : isChecker i = false) :
    opOf i ∉ [.chkResult, .chkStart] ∧ opOf i ∉ [.chkStart, .chkByte] := by
  cases i <;> simp_all [isChecker, opOf]

/-- No writer of R23 to R27 is outside the checker. -/
theorem exec_sameChecker {i : Instr} {s t : State} (hi : isChecker i = false) (h : exec i s = .next t) : SameChecker s t := by
  obtain ⟨_, _, _, _, _, _, hmatch, hregs, _⟩ := exec_writersRule h
  obtain ⟨hnot, hnot'⟩ := opOf_not_mem_of_not_isChecker hi
  have hsame := mt hregs hnot'
  simp only [not_or, not_not] at hsame
  exact ⟨not_not.mp (mt hmatch hnot), hsame⟩

/-- Settles O51: `chkByte_extends`, `chkResult_answers`, and the frame of the rest. -/
theorem checkerLaw : Obligations.CheckerLaw := by
  refine ⟨fun s => ⟨_, exec_chkStart s, ?_⟩, fun bs s hs => ⟨fun d => ?_, chkResult_answers hs, fun i t hi h => ?_⟩, ?_⟩
  · rw [checkerHolds_iff_of_le (by simp)]
    exact ⟨rfl, rfl, rfl⟩
  · exact ⟨_, exec_chkByte d s, chkByte_extends (exec_chkByte d s) hs⟩
  · obtain ⟨_, hrcrc, hhold, hrcnt⟩ := exec_sameChecker hi h
    exact checkerHolds_of_same hrcrc hhold hrcnt hs
  · rw [checkerHolds_iff_of_le (by simp)]
    exact ⟨rfl, rfl, rfl⟩

end Sys2Proof.Proofs
end

section
/-!
PROOFS. Noninterference: the checker against the other units (spec 70_reset_and_hazards.md R134), the flags against every command but those
that read them (60_exceptions.md R121), and the reading commands (20_memory.md R39). Each is a relation between two states that one command
carries from the states before to the states after.
-/

namespace Sys2Proof.Proofs

open Sys2Proof.Machine Sys2Proof.Safety

/-! ## The checker and the rest -/

/-- All elements outside the checker, and what the host does next, are in `t` what they are in `s`. -/
def SameRest (s t : State) : Prop :=
  t.crc = s.crc ∧ t.pbuf = s.pbuf ∧ t.plen = s.plen ∧ t.out = s.out ∧
  t.warn = s.warn ∧ t.ovf = s.ovf ∧ t.err = s.err ∧ t.pending = s.pending

/-- The checker's commands write no element of the other units. -/
theorem exec_sameRest {i : Instr} {s t : State} (hi : isChecker i = true) (h : exec i s = .next t) : SameRest s t := by
  cases i with
  | chkStart =>
    rw [exec_chkStart] at h
    cases h
    exact ⟨rfl, rfl, rfl, rfl, rfl, rfl, rfl, rfl⟩
  | chkByte d =>
    rw [exec_chkByte] at h
    cases h
    exact ⟨rfl, rfl, rfl, rfl, rfl, rfl, rfl, rfl⟩
  | chkResult =>
    rw [exec_chkResult] at h
    cases h
    exact ⟨rfl, rfl, rfl, rfl, rfl, rfl, rfl, rfl⟩
  | _ => cases hi

theorem encodeAndAppend_sameRest {w : Nat} {e : Encoded w} {na : Bool} {s s' t t' : State} (hs : SameRest s s')
    (h : encodeAndAppend e na s = .next t) (h' : encodeAndAppend e na s' = .next t') : SameRest t t' := by
  rw [encodeAndAppend_eq] at h h'
  cases h
  cases h'
  simp_all [SameRest, appendFits]

/-- What a command leaves outside the checker depends only on what was outside the checker. -/
theorem exec_sameRest_of_sameRest {i : Instr} {s s' t t' : State} (hi : isChecker i = false) (hs : SameRest s s')
    (h : exec i s = .next t) (h' : exec i s' = .next t') : SameRest t t' := by
  cases i with
  | chkStart | chkByte | chkResult => cases hi
  | encU => exact encodeAndAppend_sameRest hs h h'
  | encS => exact encodeAndAppend_sameRest hs h h'
  | encSM => exact encodeAndAppend_sameRest hs h h'
  | buildFrame =>
    rw [exec_buildFrame] at h h'
    obtain rfl := Host.Outcome.next.inj h
    obtain rfl := Host.Outcome.next.inj h'
    simp_all [SameRest]
  | nop | rdStatus | clrFlags | rdPlen | decU | decS | decSM | crcInit | crcByte | crcRd | payClr =>
    obtain rfl := complete_next_iff.mp h
    obtain rfl := complete_next_iff.mp h'
    simp_all [SameRest]

/-- What a command of the checker leaves in the checker depends only on what was in the checker. -/
theorem exec_sameChecker_of_sameChecker {i : Instr} {s s' t t' : State} (hi : isChecker i = true) (hs : SameChecker s s')
    (h : exec i s = .next t) (h' : exec i s' = .next t') : SameChecker t t' := by
  obtain ⟨hmatch, hrcrc, hhold, hrcnt⟩ := hs
  cases i with
  | chkStart =>
    rw [exec_chkStart] at h h'
    cases h
    cases h'
    exact ⟨rfl, rfl, rfl, rfl⟩
  | chkByte d =>
    rw [exec_chkByte] at h h'
    cases h
    cases h'
    simp [SameChecker, hmatch, hrcrc, hhold, hrcnt]
  | chkResult =>
    rw [exec_chkResult] at h h'
    cases h
    cases h'
    simp [SameChecker, hrcrc, hhold, hrcnt]
  | _ => cases hi

theorem eq_of_sameRest_of_sameChecker {s t : State} (hrest : SameRest s t) (hchecker : SameChecker s t) :
    { t with resp := none } = { s with resp := none } := by
  obtain ⟨hcrc, hpbuf, hplen, hout, hwarn, hovf, herr, hpending⟩ := hrest
  obtain ⟨hmatch, hrcrc, hhold, hrcnt⟩ := hchecker
  simp [hcrc, hpbuf, hplen, hout, hwarn, hovf, herr, hpending, hmatch, hrcrc, hhold, hrcnt]

theorem SameRest.symm_trans {s t u : State} (h : SameRest s t) (h' : SameRest s u) : SameRest t u := by
  simp_all [SameRest]

theorem SameChecker.symm_trans {s t u : State} (h : SameChecker s t) (h' : SameChecker s u) : SameChecker t u := by
  simp_all [SameChecker]

/-- Settles O60: in both orders the rest is what `j` alone leaves, and the checker what `i` alone leaves. -/
theorem checkerCommutesWithTheRest : Obligations.CheckerCommutesWithTheRest := by
  intro i j s a ab b ba hi hj ha hab hb hba
  have hrest : SameRest ba ab :=
    (exec_sameRest hi hba).symm_trans (exec_sameRest_of_sameRest hj (exec_sameRest hi ha) hb hab)
  have hchecker : SameChecker ab ba :=
    (exec_sameChecker hj hab).symm_trans (exec_sameChecker_of_sameChecker hi (exec_sameChecker hj hb) ha hba)
  exact eq_of_sameRest_of_sameChecker hrest (hchecker.symm_trans ⟨rfl, rfl, rfl, rfl⟩)

/-! ## The flags -/

/-- The elements that are no flags, what the host does next, and the value answered are in `t` what they are in `s`. -/
def SameButFlags (s t : State) : Prop :=
  t.crc = s.crc ∧ t.pbuf = s.pbuf ∧ t.plen = s.plen ∧ t.out = s.out ∧ t.rcrc = s.rcrc ∧ t.hold = s.hold ∧
  t.rcnt = s.rcnt ∧ t.pending = s.pending ∧ t.resp.map Response.value = s.resp.map Response.value

theorem encodeAndAppend_with_flags {na : Bool} {w : Nat} {e : Encoded w} {s t : State} (wn o er m : Bool)
    (h : encodeAndAppend e na s = .next t) :
    ∃ u, encodeAndAppend e na { s with warn := wn, ovf := o, err := er, matchFlag := m } = .next u ∧ SameButFlags t u := by
  rw [encodeAndAppend_eq] at h
  cases h
  exact ⟨_, encodeAndAppend_eq .., rfl, rfl, rfl, rfl, rfl, rfl, rfl, rfl, rfl⟩

/-- R121: only `RD_STATUS` and `CLR_FLAGS` have a flag in their value, and no command has one in another element. -/
theorem exec_with_flags {i : Instr} {s t : State} (w o e m : Bool) (h : exec i s = .next t) (hrd : i ≠ .rdStatus)
    (hclr : ∀ d, i ≠ .clrFlags d) :
    ∃ u, exec i { s with warn := w, ovf := o, err := e, matchFlag := m } = .next u ∧ SameButFlags t u := by
  cases i with
  | rdStatus => exact absurd rfl hrd
  | clrFlags d => exact absurd rfl (hclr d)
  | encU => exact encodeAndAppend_with_flags w o e m h
  | encS => exact encodeAndAppend_with_flags w o e m h
  | encSM => exact encodeAndAppend_with_flags w o e m h
  | buildFrame =>
    rw [exec_buildFrame] at h
    obtain rfl := Host.Outcome.next.inj h
    exact ⟨_, exec_buildFrame _, rfl, rfl, rfl, rfl, rfl, rfl, rfl, rfl, rfl⟩
  | chkResult =>
    rw [exec_chkResult] at h
    cases h
    exact ⟨_, exec_chkResult _, rfl, rfl, rfl, rfl, rfl, rfl, rfl, rfl, rfl⟩
  | nop | rdPlen | decU | decS | decSM | crcInit | crcByte | crcRd | payClr | chkStart | chkByte =>
    obtain rfl := complete_next_iff.mp h
    exact ⟨_, rfl, rfl, rfl, rfl, rfl, rfl, rfl, rfl, rfl, rfl⟩

/-- Settles O13: `exec_with_flags` is the statement. -/
theorem flagsDoNotSteerCommands : Obligations.FlagsDoNotSteerCommands :=
  fun _ _ _ w o e m h hrd hclr => exec_with_flags w o e m h hrd hclr

/-! ## The reading commands -/

/-- An encode that neither appends nor warns writes no element. -/
theorem encodeInstr_reading {k : FieldKind} {na : Bool} {w : Nat} {d : Word} {s t : State}
    (hi : isReading (encodeInstr k na w d) = true) (h : exec (encodeInstr k na w d) s = .next t) :
    t = { s with resp := t.resp } := by
  have hcolumn : isReading (encodeInstr k na w d) = (na && !outOfRange (encodeInstr k na w d)) := by cases k <;> rfl
  rw [hcolumn, outOfRange_encodeInstr, Bool.not_not, Bool.and_eq_true] at hi
  obtain ⟨hna, hinr⟩ := hi
  rw [exec_encodeInstr, encodeAndAppend_eq] at h
  cases h
  simp [hna, hinr]

/-- R39: the reading commands that are no encodes have no writes at all. -/
theorem exec_reading {i : Instr} {s t : State} (hi : isReading i = true) (h : exec i s = .next t) :
    t = { s with resp := t.resp } := by
  cases i with
  | encU => exact encodeInstr_reading (k := .u) hi h
  | encS => exact encodeInstr_reading (k := .s) hi h
  | encSM => exact encodeInstr_reading (k := .sm) hi h
  | nop | rdStatus | rdPlen | crcRd | decU | decS | decSM =>
    obtain rfl := complete_next_iff.mp h
    rfl
  | clrFlags | crcInit | crcByte | payClr | buildFrame | chkStart | chkByte | chkResult => cases hi

/-- The verdict is a function of registers that `CHK_RESULT` does not write. -/
theorem chkResult_repeats {s t u : State} (h : exec .chkResult s = .next t) (h' : exec .chkResult t = .next u) :
    t = { s with matchFlag := t.matchFlag, resp := t.resp } ∧ u.matchFlag = t.matchFlag ∧ u.resp = t.resp := by
  rw [exec_chkResult] at h h'
  cases h
  cases h'
  exact ⟨rfl, rfl, rfl⟩

/-- The payload is still there after the frame is built. -/
theorem buildFrame_repeats {s t u : State} (h : exec .buildFrame s = .next t) (h' : exec .buildFrame t = .next u) :
    ∃ beats, t.out = s.out ++ beats ∧ u.out = s.out ++ beats ++ beats ∧ beats.map Beat.byte = buildFrame s.pbuf := by
  rw [exec_buildFrame] at h h'
  obtain rfl := Host.Outcome.next.inj h
  obtain rfl := Host.Outcome.next.inj h'
  exact ⟨_, rfl, rfl, beatsOf_bytes _⟩

/-- Settles O58: the reading commands, and the two repeated ones. -/
theorem readingCommandsHaveNoSideEffect : Obligations.ReadingCommandsHaveNoSideEffect :=
  ⟨fun _ _ _ hi h => exec_reading hi h, fun _ _ _ h h' => chkResult_repeats h h', fun _ _ _ h h' => buildFrame_repeats h h'⟩

end Sys2Proof.Proofs
end

section
/-!
PROOFS. The laws of the CRC (spec 41_crc24q.md section 3): all of them from the linearity of one bit (`crcBit_xor`), from the register that
shifts when it is fed its own top byte (`crcByte_top`), and from the lowest tap, which makes a bit step injective.
-/

namespace Sys2Proof.Proofs

open Sys2Proof.Machine Sys2Proof.Safety

/-! ## Linearity -/

theorem foldl_crcBit_xor (is : List Nat) (b b' : Byte) (c c' : Crc) :
    is.foldl (fun r i => crcBit r ((b ^^^ b').getLsbD i)) (c ^^^ c') =
      is.foldl (fun r i => crcBit r (b.getLsbD i)) c ^^^ is.foldl (fun r i => crcBit r (b'.getLsbD i)) c' := by
  induction is generalizing c c' with
  | nil => rfl
  | cons i is ih => simp only [List.foldl_cons, BitVec.getLsbD_xor, crcBit_xor, ← ih]

/-- One byte is linear in (register, byte) together. -/
theorem crcByte_xor (c c' : Crc) (b b' : Byte) : crcByte (c ^^^ c') (b ^^^ b') = crcByte c b ^^^ crcByte c' b' :=
  foldl_crcBit_xor _ b b' c c'

theorem foldl_crcByte_xor {a b : List Byte} (hlen : a.length = b.length) (c c' : Crc) :
    (List.zipWith (· ^^^ ·) a b).foldl crcByte (c ^^^ c') = a.foldl crcByte c ^^^ b.foldl crcByte c' := by
  induction a generalizing b c c' with
  | nil =>
    obtain rfl := List.eq_nil_of_length_eq_zero hlen.symm
    rfl
  | cons x a ih =>
    obtain ⟨y, b, rfl⟩ := List.exists_cons_of_length_eq_add_one hlen.symm
    simp only [List.zipWith_cons_cons, List.foldl_cons, crcByte_xor]
    exact ih (Nat.succ.inj hlen) _ _

/-! ## The equal forms -/

theorem crcBit_false (r : Crc) : crcBit r false = if r.getLsbD 23 then r <<< 1 ^^^ 0x864CFB#24 else r <<< 1 := by
  rw [crcBit, Bool.xor_false]

/-- What a shift by at most two bytes moves to the top of the register. -/
theorem extractLsb'_top_shiftLeft (c : Crc) {k : Nat} (hk : k ≤ 16) :
    (c <<< k).extractLsb' 16 8 = c.extractLsb' (16 - k) 8 := by
  apply BitVec.eq_of_getLsbD_eq
  intro i hi
  have hidx : 16 + i - k = 16 - k + i := by omega
  have hlow : ¬16 + i < k := by omega
  have hhigh : 16 + i < 24 := by omega
  simp only [BitVec.getLsbD_extractLsb', BitVec.getLsbD_shiftLeft, hi, hidx, hlow, hhigh, decide_true, decide_false,
    Bool.true_and, Bool.not_false]

/-- R82: the byte may be added to the top of the register before eight shifts. -/
theorem crcByte_eq_shifts (c : Crc) (b : Byte) :
    crcByte c b = (fun r : Crc => crcBit r false)^[8] (c ^^^ b.setWidth 24 <<< 16) := by
  have hshifts : ∀ r : Crc, (fun r : Crc => crcBit r false)^[8] r = crcByte r 0#8 := fun _ => rfl
  have htop : (b.setWidth 24 <<< 16).extractLsb' 16 8 = b := by
    rw [extractLsb'_top_shiftLeft _ (k := 16) (by decide)]
    exact (BitVec.setWidth_setWidth_of_le (k := 8) (l := 24) b (by decide)).trans (BitVec.setWidth_eq b)
  have hbyte : crcByte (b.setWidth 24 <<< 16) b = 0#24 := by
    have := crcByte_top (b.setWidth 24 <<< 16)
    rw [htop, ← BitVec.shiftLeft_add] at this
    rw [this]
    exact BitVec.shiftLeft_eq_zero (by decide)
  calc crcByte c b
      = crcByte c b ^^^ crcByte (b.setWidth 24 <<< 16) b := by rw [hbyte, BitVec.xor_zero]
    _ = crcByte (c ^^^ b.setWidth 24 <<< 16) (b ^^^ b) := (crcByte_xor ..).symm
    _ = (fun r : Crc => crcBit r false)^[8] (c ^^^ b.setWidth 24 <<< 16) := by rw [BitVec.xor_self, hshifts]

/-- R85: the top byte shifts out, and the table is indexed by what it differs by from the message byte. -/
theorem crcByte_eq_table (c : Crc) (b : Byte) : crcByte c b = c <<< 8 ^^^ crcByte 0#24 (c.extractLsb' 16 8 ^^^ b) := by
  rw [← crcByte_top c, ← crcByte_xor, BitVec.xor_zero, ← BitVec.xor_assoc, BitVec.xor_self, BitVec.zero_xor]

/-- Settles O32: R86 is `foldl_crcByte_eq`; the table entries are evaluated. -/
theorem crcEqualForms : Obligations.CrcEqualForms := by
  refine ⟨fun c b => ?_, crcByte_eq_table, by decide, by decide, by decide, by decide, fun s hs => ?_⟩
  · simp only [← crcBit_false]
    exact crcByte_eq_shifts c b
  · rw [crc24q, foldl_crcByte_eq, bitsOf_bytesOf s hs]

/-! ## The laws of R90 -/

theorem crc24q_append (m n : List Byte) : crc24q (m ++ n) = n.foldl crcByte (crc24q m) := List.foldl_append

/-- The three bytes of the register shift it out. -/
theorem foldl_crcByte_threeBytes (c : Crc) : (threeBytes c).foldl crcByte c = 0#24 := by
  have hmid : c.extractLsb' 8 8 = (c <<< 8).extractLsb' 16 8 := (extractLsb'_top_shiftLeft c (k := 8) (by decide)).symm
  have hlow : c.extractLsb' 0 8 = (c <<< 16).extractLsb' 16 8 := (extractLsb'_top_shiftLeft c (k := 16) (by decide)).symm
  calc (threeBytes c).foldl crcByte c
      = crcByte (crcByte (crcByte c (c.extractLsb' 16 8)) (c.extractLsb' 8 8)) (c.extractLsb' 0 8) := rfl
    _ = crcByte (c <<< 16) (c.extractLsb' 0 8) := by rw [crcByte_top, hmid, crcByte_top, ← BitVec.shiftLeft_add]
    _ = 0#24 := by rw [hlow, crcByte_top, ← BitVec.shiftLeft_add]; exact BitVec.shiftLeft_eq_zero (by decide)

theorem crc24q_append_threeBytes (m : List Byte) : crc24q (m ++ threeBytes (crc24q m)) = 0#24 := by
  rw [crc24q_append, foldl_crcByte_threeBytes]

/-- Settles O33: linearity from registers 0 and 0, and the three laws of concatenation. -/
theorem crcLaws : Obligations.CrcLaws :=
  ⟨fun _ _ hlen => foldl_crcByte_xor hlen 0#24 0#24, crc24q_append_threeBytes, fun _ => rfl, crc24q_append⟩

/-! ## Single-bit errors -/

/-- The lowest tap is set, so bit 0 is the feedback. -/
theorem crcBit_getLsbD_zero (c : Crc) (d : Bool) : (crcBit c d).getLsbD 0 = (c.getLsbD 23 ^^ d) := by
  have hshift : (c <<< 1).getLsbD 0 = false := by simp
  have htap : (c <<< 1 ^^^ Config.crcPoly).getLsbD 0 = true := by rw [BitVec.getLsbD_xor, hshift]; rfl
  rw [crcBit]
  cases c.getLsbD 23 ^^ d with
  | false => exact hshift
  | true => exact htap

/-- Only the zero register goes to zero: it has no feedback, so the step is a shift. -/
theorem eq_zero_of_crcBit_false {r : Crc} (h : crcBit r false = 0#24) : r = 0#24 := by
  have htop : r.getLsbD 23 = false := by simpa [h] using (crcBit_getLsbD_zero r false).symm
  rw [crcBit_false, htop, if_neg Bool.false_ne_true] at h
  apply BitVec.eq_of_getLsbD_eq
  intro i hi
  obtain rfl | hlt := Nat.eq_or_lt_of_le (Nat.le_of_lt_succ hi)
  · rw [htop, BitVec.getLsbD_zero]
  · have hshifted := congrArg (BitVec.getLsbD · (i + 1)) h
    have hin : i + 1 < 24 := by omega
    rw [BitVec.getLsbD_eq_getElem hi]
    simpa [hin] using hshifted

theorem crcBit_injective (d : Bool) : Function.Injective (crcBit · d) := by
  intro c c' h
  have hzero : crcBit (c ^^^ c') false = 0#24 := by
    rw [← Bool.xor_self d, crcBit_xor]
    exact BitVec.xor_eq_zero_iff.mpr h
  exact BitVec.xor_eq_zero_iff.mp (eq_zero_of_crcBit_false hzero)

/-- From one register, the two message bits leave different registers. -/
theorem crcBit_ne_of_ne (c : Crc) {d d' : Bool} (h : d ≠ d') : crcBit c d ≠ crcBit c d' := by
  intro heq
  have hbit := congrArg (BitVec.getLsbD · 0) heq
  simp only [crcBit_getLsbD_zero, Bool.xor_right_inj] at hbit
  exact h hbit

theorem foldl_crcBit_injective (s : List Bool) : Function.Injective (s.foldl crcBit ·) := by
  induction s with
  | nil => exact fun _ _ h => h
  | cons d s ih => exact fun _ _ h => crcBit_injective d (ih h)

/-- Two bit strings that differ at one place alone, taken apart there. -/
theorem exists_split_of_differ {s t : List Bool} (hlen : s.length = t.length) (h : ∃! k : Nat, s[k]? ≠ t[k]?) :
    ∃ front d d' back, s = front ++ d :: back ∧ t = front ++ d' :: back ∧ d ≠ d' := by
  obtain ⟨k, hk, hunique⟩ := h
  have hsame : ∀ i, i ≠ k → s[i]? = t[i]? := fun i hi => not_not.mp (mt (hunique i) hi)
  have hks : k < s.length := by
    by_contra hge
    exact hk (by rw [List.getElem?_eq_none (by omega), List.getElem?_eq_none (by omega)])
  have hkt : k < t.length := hlen ▸ hks
  have hfront : s.take k = t.take k := by
    apply List.ext_getElem?
    intro i
    rw [List.getElem?_take, List.getElem?_take]
    split
    next hi => exact hsame i (by omega)
    next => rfl
  have hback : s.drop (k + 1) = t.drop (k + 1) := by
    apply List.ext_getElem?
    intro i
    rw [List.getElem?_drop, List.getElem?_drop]
    exact hsame _ (by omega)
  refine ⟨s.take k, s[k], t[k], s.drop (k + 1), ?_, ?_, ?_⟩
  · rw [List.getElem_cons_drop, List.take_append_drop]
  · rw [hfront, hback, List.getElem_cons_drop, List.take_append_drop]
  · simpa [List.getElem?_eq_getElem hks, List.getElem?_eq_getElem hkt] using hk

/-- Settles O34: one register before the differing bit, two after it, and injective steps from there. -/
theorem crcSeparatesSingleBitErrors : Obligations.CrcSeparatesSingleBitErrors := by
  rintro a b ⟨hlen, hone⟩ heq
  obtain ⟨front, d, d', back, ha, hb, hne⟩ := exists_split_of_differ (by simp [hlen]) hone
  rw [crc24q, crc24q, foldl_crcByte_eq, foldl_crcByte_eq, ha, hb, List.foldl_append, List.foldl_append] at heq
  exact crcBit_ne_of_ne _ hne (foldl_crcBit_injective back heq)

/-! ## Fixed points -/

/-- Settles O36: the kernel evaluates the ten sequences, of at most 22 bytes. -/
theorem crcFixedPoints : Obligations.CrcFixedPoints := by
  unfold Obligations.CrcFixedPoints
  decide +kernel

end Sys2Proof.Proofs
end

section
/-!
PROOFS. The register as a polynomial remainder (spec 41_crc24q.md R81, last paragraph): a bit string stands for the polynomial over GF(2) whose
coefficients it lists, highest first. One bit step multiplies the register by x, adds the message bit at x^24, and takes off the generator
where that leaves degree 24.
-/

namespace Sys2Proof.Proofs

open Sys2Proof.Machine Sys2Proof.Safety Polynomial

/-! ## The polynomial of a bit string -/

/-- The coefficient of a bit. -/
noncomputable def coeffOf (d : Bool) : (ZMod 2)[X] := C (if d then 1 else 0)

/-- The polynomial with these coefficients, highest first. -/
noncomputable def polyOf (s : List Bool) : (ZMod 2)[X] := s.foldl (fun p d => p * X + coeffOf d) 0

theorem polyOf_snoc (s : List Bool) (d : Bool) : polyOf (s ++ [d]) = polyOf s * X + coeffOf d := by
  rw [polyOf, List.foldl_append]
  rfl

theorem coeffOf_xor (d d' : Bool) : coeffOf (d ^^ d') = coeffOf d + coeffOf d' := by
  have htwo : (1 : (ZMod 2)[X]) + 1 = 0 := CharTwo.add_self_eq_zero 1
  cases d <;> cases d' <;> simp [coeffOf, htwo]

theorem polyOf_cons (d : Bool) (s : List Bool) : polyOf (d :: s) = coeffOf d * X ^ s.length + polyOf s := by
  induction s using List.reverseRecOn with
  | nil => simp [polyOf]
  | append_singleton s e ih =>
    rw [← List.cons_append, polyOf_snoc, polyOf_snoc, ih, List.length_append, List.length_singleton]
    ring

theorem degree_polyOf_lt (s : List Bool) : (polyOf s).degree < s.length := by
  induction s with
  | nil => simp [polyOf]
  | cons d s ih =>
    have hlt : (s.length : WithBot ℕ) < (d :: s).length := by
      rw [List.length_cons]
      exact_mod_cast Nat.lt_succ_self _
    rw [polyOf_cons]
    exact (degree_add_le _ _).trans_lt (max_lt ((degree_C_mul_X_pow_le _ _).trans_lt hlt) (ih.trans hlt))

theorem polyOf_zipWith_xor {s t : List Bool} (hlen : s.length = t.length) :
    polyOf (List.zipWith (· ^^ ·) s t) = polyOf s + polyOf t := by
  induction s generalizing t with
  | nil =>
    obtain rfl := List.eq_nil_of_length_eq_zero hlen.symm
    simp [polyOf]
  | cons d s ih =>
    obtain ⟨e, t, rfl⟩ := List.exists_cons_of_length_eq_add_one hlen.symm
    have hlen' : s.length = t.length := Nat.succ.inj hlen
    rw [List.zipWith_cons_cons, polyOf_cons, polyOf_cons, polyOf_cons, ih hlen', coeffOf_xor, List.length_zipWith,
      hlen', min_self]
    ring

theorem polyOf_str_xor {w : Nat} (x y : BitVec w) : polyOf (str (x ^^^ y)) = polyOf (str x) + polyOf (str y) := by
  rw [← polyOf_zipWith_xor (by simp)]
  congr 1
  apply List.ext_getElem
  · simp
  · intro i hi hi'
    simp [str_getElem]

/-! ## One bit -/

/-- The register without its top bit. -/
def lowBits (c : Crc) : BitVec 23 := c.extractLsb' 0 23

theorem polyOf_str_crc (c : Crc) : polyOf (str c) = coeffOf (c.getLsbD 23) * X ^ 23 + polyOf (str (lowBits c)) := by
  have hsplit : str c = c.getLsbD 23 :: str (lowBits c) := by
    apply List.ext_getElem
    · simp
    · intro i hi _
      rw [str_length] at hi
      cases i with
      | zero => rfl
      | succ i =>
        have hidx : 24 - 1 - (i + 1) = 23 - 1 - i := by omega
        have hlt : 23 - 1 - i < 23 := by omega
        simp only [List.getElem_cons_succ, str_getElem, lowBits, BitVec.getLsbD_extractLsb', hidx, hlt, decide_true,
          Bool.true_and, Nat.zero_add]
  rw [hsplit, polyOf_cons, str_length]

/-- A shift drops the top bit and multiplies by x. -/
theorem polyOf_str_shiftLeft (c : Crc) : polyOf (str (c <<< 1)) = polyOf (str (lowBits c)) * X := by
  have hsplit : str (c <<< 1) = str (lowBits c) ++ [false] := by
    apply List.ext_getElem
    · simp
    · intro i hi _
      rw [str_length] at hi
      rw [str_getElem, BitVec.getLsbD_shiftLeft, List.getElem_append]
      split
      next hlow =>
        rw [str_length] at hlow
        have hidx : 24 - 1 - i - 1 = 23 - 1 - i := by omega
        have hlt : 24 - 1 - i < 24 ∧ ¬24 - 1 - i < 1 ∧ 23 - 1 - i < 23 := by omega
        simp [str_getElem, lowBits, hidx, hlt]
      next hlast =>
        have hlt : 24 - 1 - i < 1 := by
          rw [str_length] at hlast
          omega
        simp [hlt]
  rw [hsplit, polyOf_snoc]
  simp [coeffOf]

/-- `g(x)`: the generator polynomial. -/
noncomputable def genPoly : (ZMod 2)[X] := polyOf (str Config.crcPoly25)

theorem genPoly_eq : genPoly = X ^ 24 + polyOf (str Config.crcPoly) := by
  have hsplit : str Config.crcPoly25 = true :: str Config.crcPoly := by decide
  rw [genPoly, hsplit, polyOf_cons]
  simp [coeffOf]

theorem genPoly_monic : genPoly.Monic := by
  rw [genPoly_eq]
  exact monic_X_pow_add (degree_polyOf_lt _)

theorem degree_genPoly : genPoly.degree = 24 := by
  rw [genPoly_eq]
  exact (degree_add_eq_left_of_degree_lt (by rw [degree_X_pow]; exact degree_polyOf_lt _)).trans (degree_X_pow 24)

/-- The taps are added where the feedback is 1. -/
theorem polyOf_str_crcBit_eq (c : Crc) (d : Bool) : polyOf (str (crcBit c d)) =
    polyOf (str (lowBits c)) * X + coeffOf (c.getLsbD 23 ^^ d) * polyOf (str Config.crcPoly) := by
  rw [crcBit, ← polyOf_str_shiftLeft]
  cases c.getLsbD 23 ^^ d with
  | false => simp [coeffOf]
  | true => simp [coeffOf, polyOf_str_xor]

/-- R81 in polynomials: what the step takes off is the feedback bit times the generator. -/
theorem polyOf_str_crcBit (c : Crc) (d : Bool) :
    polyOf (str (crcBit c d)) + genPoly * coeffOf (c.getLsbD 23 ^^ d) = polyOf (str c) * X + coeffOf d * X ^ 24 := by
  have htwo : (2 : (ZMod 2)[X]) = 0 := CharTwo.two_eq_zero
  rw [polyOf_str_crcBit_eq, genPoly_eq, polyOf_str_crc c, coeffOf_xor]
  linear_combination ((coeffOf (c.getLsbD 23) + coeffOf d) * polyOf (str Config.crcPoly)) * htwo

/-! ## All bits -/

/-- A register has degree below 24, so it is the remainder as soon as it is congruent. -/
theorem polyOf_str_eq_modByMonic {c : Crc} {p q : (ZMod 2)[X]} (h : polyOf (str c) + genPoly * q = p) :
    polyOf (str c) = p %ₘ genPoly := by
  have hdegree : (polyOf (str c)).degree < genPoly.degree := by
    rw [degree_genPoly]
    exact degree_polyOf_lt (str c)
  exact (div_modByMonic_unique q _ genPoly_monic ⟨h, hdegree⟩).2.symm

theorem polyOf_str_foldl_crcBit (bits : List Bool) :
    polyOf (str (bits.foldl crcBit 0#24)) = (polyOf bits * X ^ 24) %ₘ genPoly := by
  induction bits using List.reverseRecOn with
  | nil =>
    have hzero : str 0#24 = List.replicate 24 false := by decide
    refine polyOf_str_eq_modByMonic (q := 0) ?_
    simp [polyOf, coeffOf, hzero]
  | append_singleton bits d ih =>
    rw [List.foldl_append, List.foldl_cons, List.foldl_nil, polyOf_snoc]
    generalize bits.foldl crcBit 0#24 = c at ih
    have hdiv := modByMonic_add_div (polyOf bits * X ^ 24) genPoly
    rw [← ih] at hdiv
    refine polyOf_str_eq_modByMonic
      (q := (polyOf bits * X ^ 24) /ₘ genPoly * X + coeffOf (c.getLsbD 23 ^^ d)) ?_
    linear_combination polyOf_str_crcBit c d + X * hdiv

/-- Settles O35: `polyOf` and `genPoly` are the statement's `poly` and `g`. -/
theorem crcIsThePolynomialRemainder : Obligations.CrcIsThePolynomialRemainder := polyOf_str_foldl_crcBit

end Sys2Proof.Proofs
end

section
/-!
PROOFS. Wire order (spec 00_scope.md R9) and the frame's properties (42_frame.md R97, R106, R107, R109): sizes, where the message number
stands, that a built frame passes the check and that a frame with one bit flipped does not.
-/

namespace Sys2Proof.Proofs

open Sys2Proof.Machine Sys2Proof.Safety

/-! ## Wire order -/

theorem str_getElem? {w : Nat} (f : BitVec w) {i : Nat} (hi : i < w) : (str f)[i]? = some (f.getLsbD (w - 1 - i)) := by
  have hlen : i < (str f).length := by rwa [str_length]
  rw [List.getElem?_eq_getElem hlen, str_getElem]

/-- Bit `8k + j` of a byte sequence is bit `7 - j` of byte k. -/
theorem bitsOf_getElem? (bs : List Byte) (k : Nat) {j : Nat} (hj : j < 8) :
    (bitsOf bs)[8 * k + j]? = bs[k]?.map (fun b => b.getLsbD (7 - j)) := by
  induction bs generalizing k with
  | nil => rfl
  | cons b bs ih =>
    rw [bitsOf_cons]
    cases k with
    | zero =>
      rw [Nat.mul_zero, Nat.zero_add, List.getElem?_append_left (by simpa using hj), str_getElem? b hj]
      rfl
    | succ k =>
      have hidx : 8 * (k + 1) + j - 8 = 8 * k + j := by omega
      rw [List.getElem?_append_right (by rw [str_length]; omega), str_length, hidx, ih, List.getElem?_cons_succ]

/-- Settles O38: `bitsOf` undoes `bytesOf`, and a byte sequence has its bits where `bitsOf_getElem?` says. -/
theorem wireOrderOfBitsAndBytes : Obligations.WireOrderOfBitsAndBytes := by
  refine ⟨fun w f => ⟨str_length f, fun i hi => str_getElem? f hi⟩, fun s hs => ⟨bytesOf_length s hs, fun k j hj _ => ?_⟩⟩
  rw [← bitsOf_getElem? _ k hj, bitsOf_bytesOf s hs]

/-! ## Sizes -/

theorem beatsOf_last_iff {bs : List Byte} {k : Nat} {b : Beat} (h : (beatsOf bs)[k]? = some b) :
    b.last = true ↔ k + 1 = bs.length := by
  rw [beatsOf, List.getElem?_mapIdx, Option.map_eq_some_iff] at h
  obtain ⟨_, _, rfl⟩ := h
  exact decide_eq_true_iff

/-- Settles O40: the beats are those of the frame of `pbuf`, which holds `plen` bits. -/
theorem frameSizes : Obligations.FrameSizes := by
  intro s hwf
  obtain ⟨hlen, hmax⟩ := (wf_iff _ _).mp hwf
  have hbeats : (beatsOf (buildFrame s.pbuf)).length = (s.plen.toNat + 7) / 8 + 6 := by
    rw [beatsOf_length, buildFrame_length, hlen]
  refine ⟨_, _, exec_buildFrame s, rfl, hbeats, by omega, by omega, fun k b hb => ?_⟩
  rw [beatsOf_last_iff hb, beatsOf_length]

/-! ## The check -/

theorem checkFrame_append_threeBytes (m : List Byte) : checkFrame (m ++ threeBytes (crc24q m)) = true := by
  simp [checkFrame]

/-- Settles O43: a frame is its body and the CRC of its body. -/
theorem builtFramePassesCheck : Obligations.BuiltFramePassesCheck := fun p _ => checkFrame_append_threeBytes (frameBody p)

/-- The self-check law of R90: a sequence that passes has the CRC 0. -/
theorem crc24q_eq_zero_of_checkFrame {bs : List Byte} (h : checkFrame bs = true) : crc24q bs = 0#24 := by
  rw [checkFrame] at h
  split at h
  · cases h
  · rw [← List.take_append_drop (bs.length - 3) bs, ← beq_iff_eq.mp h, crc24q_append_threeBytes]

/-- One bit flipped anywhere leaves a CRC other than the frame's, which is 0. -/
theorem flipped_fails {p : List Bool} {bytes : List Byte} (hdiffer : DifferInOneBit (buildFrame p) bytes) :
    checkFrame bytes = false := by
  by_contra hpass
  have hframe := crc24q_eq_zero_of_checkFrame (checkFrame_append_threeBytes (frameBody p))
  have hbytes := crc24q_eq_zero_of_checkFrame (Bool.eq_true_of_not_eq_false hpass)
  exact crcSeparatesSingleBitErrors _ _ hdiffer (hframe.trans hbytes.symm)

/-- Settles O44: `flipped_fails`, for every payload. -/
theorem flippedFrameFailsCheck : Obligations.FlippedFrameFailsCheck := fun _ _ _ hdiffer => flipped_fails hdiffer

/-! ## The message number -/

/-- The bits of a frame: three bytes of header, the padded payload, the CRC. -/
theorem bitsOf_buildFrame {p : List Bool} (hp : p.length ≤ 8184) :
    ∃ head, head.length = 24 ∧ bitsOf (buildFrame p) = head ++ padded p ++ bitsOf (threeBytes (frameCrc p)) := by
  refine ⟨bitsOf [0xD3#8, BitVec.ofNat 8 ((p.length + 7) / 8 / 256), BitVec.ofNat 8 ((p.length + 7) / 8 % 256)],
    by simp, ?_⟩
  rw [buildFrame, frameBody_eq hp, bitsOf_append, bitsOf_append, bitsOf_bytesOf _ (padded_length_dvd p)]

theorem bitsOf_buildFrame_payload {p : List Bool} (hp : p.length ≤ 8184) :
    ∃ back, (bitsOf (buildFrame p)).drop 24 = p ++ back := by
  obtain ⟨head, hhead, hbits⟩ := bitsOf_buildFrame hp
  rw [hbits, List.append_assoc, List.drop_left' hhead, padded, List.append_assoc]
  exact ⟨_, rfl⟩

/-- Byte `3 + k` of a frame has the payload's bits from `8k` on, as far as there are any. -/
theorem buildFrame_byte_getLsbD {p : List Bool} (hp : p.length ≤ 8184) {k j : Nat} {b : Byte} (hj : j < 8)
    (hb : (buildFrame p)[3 + k]? = some b) (hin : 8 * k + j < p.length) :
    p[8 * k + j]? = some (b.getLsbD (7 - j)) := by
  obtain ⟨back, hback⟩ := bitsOf_buildFrame_payload hp
  have hbit := bitsOf_getElem? (buildFrame p) (3 + k) hj
  have hidx : 8 * (3 + k) + j = 24 + (8 * k + j) := by omega
  rwa [hb, hidx, ← List.getElem?_drop, hback, List.getElem?_append_left hin] at hbit

/-- R106: bit `i` of a first field of 12 bits, counted from its most significant, in the byte where it stands. -/
theorem message_byte_getLsbD {m : BitVec 12} {rest : List Bool} (hlen : rest.length + 12 ≤ 8184) {k j : Nat} {b : Byte}
    (hj : j < 8) (hin : 8 * k + j < 12) (hb : (buildFrame (str m ++ rest))[3 + k]? = some b) :
    b.getLsbD (7 - j) = m.getLsbD (11 - (8 * k + j)) := by
  have hbit := buildFrame_byte_getLsbD (by rw [List.length_append, str_length]; omega) hj hb
    (by rw [List.length_append, str_length]; omega)
  rw [List.getElem?_append_left (by simpa using hin), str_getElem? m hin] at hbit
  exact (Option.some.inj hbit).symm

/-- Settles O45: the payload begins at bit 24, so its first 12 bits are byte 3 and the upper half of byte 4. -/
theorem messageNumberInBytesThreeAndFour : Obligations.MessageNumberInBytesThreeAndFour := by
  refine ⟨fun p hmin hmax => ?_, fun m rest hlen => ?_⟩
  · obtain ⟨back, hback⟩ := bitsOf_buildFrame_payload hmax
    rw [hback, List.take_append_of_le_length hmin]
  · have hbytes : 8 ≤ (buildFrame (str m ++ rest)).length := by
      rw [buildFrame_length, List.length_append, str_length]
      omega
    obtain ⟨b3, hb3⟩ : ∃ b, (buildFrame (str m ++ rest))[3 + 0]? = some b := ⟨_, List.getElem?_eq_getElem (by omega)⟩
    obtain ⟨b4, hb4⟩ : ∃ b, (buildFrame (str m ++ rest))[3 + 1]? = some b := ⟨_, List.getElem?_eq_getElem (by omega)⟩
    refine ⟨b3, b4, hb3, hb4, ?_, ?_⟩
    · apply BitVec.eq_of_getLsbD_eq
      intro i hi
      have hbit := message_byte_getLsbD hlen (j := 7 - i) (by omega) (by omega) hb3
      have hfrom : 7 - (7 - i) = i := by omega
      have hto : 11 - (8 * 0 + (7 - i)) = 4 + i := by omega
      rw [hfrom, hto] at hbit
      rw [hbit, BitVec.getLsbD_extractLsb', decide_eq_true hi, Bool.true_and]
    · apply BitVec.eq_of_getLsbD_eq
      intro i hi
      have hbit := message_byte_getLsbD hlen (j := 3 - i) (by omega) (by omega) hb4
      have hfrom : 7 - (3 - i) = 4 + i := by omega
      have hto : 11 - (8 * 1 + (3 - i)) = 0 + i := by omega
      rw [hfrom, hto] at hbit
      rw [BitVec.getLsbD_extractLsb', BitVec.getLsbD_extractLsb', decide_eq_true hi, Bool.true_and, Bool.true_and, hbit]

/-- Settles O46: the kernel evaluates the six bytes. -/
theorem emptyPayloadFrame : Obligations.EmptyPayloadFrame := by
  unfold Obligations.EmptyPayloadFrame
  decide +kernel

end Sys2Proof.Proofs
end

section
/-!
PROOFS. Commands issued one after the other (spec 30_encoding.md R57 to R59): a list of commands on the port is executed in order, and what
the three pseudo-commands compute follows from one step lemma each, by one induction.
-/

namespace Sys2Proof.Proofs

open Sys2Proof.Machine Sys2Proof.Safety

/-! ## A list of commands -/

/-- The commands, executed one after the other, lead from `s` to `t`. -/
def Executes : List Instr → State → State → Prop
  | [], s, t => t = s
  | i :: is, s, t => ∃ u, exec i s = .next u ∧ Executes is u t

theorem Executes.append {is js : List Instr} {s t u : State} (h : Executes is s t) (h' : Executes js t u) :
    Executes (is ++ js) s u := by
  induction is generalizing s with
  | nil =>
    obtain rfl := h
    exact h'
  | cons i is ih =>
    obtain ⟨v, hexec, hrest⟩ := h
    exact ⟨v, hexec, ih hrest⟩

/-- The command at the head of the port is the next one executed; those behind it stay. -/
theorem step_issue_cons {i : Instr} {is : List Instr} {s t : State} (hi : wellFormed i = true)
    (h : exec i s = .next t) : step (issue (i :: is) s) = .next (issue is t) := by
  have hissue : issue is t = { t with pending := is.map (fun i => .command (encode i)) ++ s.pending } := by
    rw [issue, exec_pending h]
  have hexec := exec_with_ports s.resp (is.map (fun i => .command (encode i)) ++ s.pending) h
  rw [hissue, ← hexec]
  exact step_of_command rfl (decode_encode hi)

theorem run_succ {k : Nat} {s t : State} (h : step s = .next t) : core.run (k + 1) s = core.run k t := by
  have hcore : core.step s = .next t := h
  simp only [Host.Core.run, hcore]

/-- R6, R7 of 00_scope.md: as many steps as commands execute them. -/
theorem run_issue {is : List Instr} {s t : State} (hwf : ∀ i ∈ is, wellFormed i = true) (h : Executes is s t) :
    core.run is.length (issue is s) = .next t := by
  induction is generalizing s with
  | nil =>
    obtain rfl := h
    rfl
  | cons i is ih =>
    obtain ⟨u, hexec, hrest⟩ := h
    obtain ⟨hi, his⟩ := List.forall_mem_cons.mp hwf
    rw [List.length_cons, run_succ (step_issue_cons hi hexec)]
    exact ih his hrest

/-- One command for each element of a list: what holds after those before it holds after it. -/
theorem executes_map {α : Type} (f : α → Instr) (P : List α → State → Prop)
    (hstep : ∀ xs x s, P xs s → ∃ t, exec (f x) s = .next t ∧ P (xs ++ [x]) t) (ys : List α) {xs : List α} {s : State}
    (hs : P xs s) : ∃ t, Executes (ys.map f) s t ∧ P (xs ++ ys) t := by
  induction ys generalizing xs s with
  | nil => exact ⟨s, rfl, by rwa [List.append_nil]⟩
  | cons y ys ih =>
    obtain ⟨u, hexec, hu⟩ := hstep xs y s hs
    obtain ⟨t, hrest, ht⟩ := ih hu
    exact ⟨t, ⟨u, hexec, hrest⟩, by rwa [List.append_assoc] at ht⟩

/-- A pseudo-command: one command to begin, one for each element, one to end. -/
theorem run_pseudo {α : Type} {first last : Instr} {f : α → Instr} {ys : List α} {s t u v : State}
    (hwfFirst : wellFormed first = true) (hwf : ∀ y ∈ ys, wellFormed (f y) = true) (hwfLast : wellFormed last = true)
    (hfirst : exec first s = .next t)
    (hrest : Executes (ys.map f) t u) (hlast : exec last u = .next v) :
    core.run (ys.length + 2) (issue (first :: ys.map f ++ [last]) s) = .next v := by
  have hexec : Executes (first :: ys.map f ++ [last]) s v := Executes.append ⟨t, hfirst, hrest⟩ ⟨v, hlast, rfl⟩
  have hall : ∀ i ∈ first :: ys.map f ++ [last], wellFormed i = true := by
    simpa [hwfFirst, or_imp, forall_and, hwfLast] using hwf
  simpa using run_issue hall hexec

/-! ## The clearing sequence -/

theorem exec_crcInit (s : State) : exec .crcInit s = .next { s with crc := 0x000000#24, resp := some ⟨plainStat s, 0#64⟩ } :=
  complete_nil_writeCrc 0x000000#24 0#64 s

/-- Settles O8: the reset input, and four commands that clear between them every element but `out`. -/
theorem resetRestoresEveryElementButOut : Obligations.ResetRestoresEveryElementButOut := by
  refine ⟨fun s rest hport => ⟨_, step_of_pending_reset hport, rfl, rfl, rfl, rfl, rfl, rfl, rfl, rfl, rfl, rfl, rfl, rfl⟩,
    fun s => ?_⟩
  refine ⟨_, run_issue (is := [.clrFlags 7, .payClr, .crcInit, .chkStart]) (by decide)
    ⟨_, rfl, _, exec_payClr _, _, exec_crcInit _, _, exec_chkStart _, rfl⟩,
    rfl, rfl, rfl, rfl, ?_, ?_, ?_, rfl, rfl, rfl, rfl, rfl⟩
  · simp
  · simp
  · simp

/-! ## `CRC24Q` -/

theorem exec_crcRd (s : State) : exec .crcRd s = .next { s with resp := some ⟨plainStat s, BitVec.ofNat 64 s.crc.toNat⟩ } := by
  rw [BitVec.ofNat_toNat]
  exact complete_nil _ s

theorem setWidth_setWidth_byte (b : Byte) : (b.setWidth 64).setWidth 8 = b := by simp

/-- Nothing but `crc` and the response differs from `s`, and `crc` is that of the bytes. -/
def CrcOf (s : State) (bytes : List Byte) (t : State) : Prop :=
  t = { s with crc := crc24q bytes, resp := t.resp }

theorem crcByte_extends (s : State) (bytes : List Byte) (b : Byte) (t : State) (h : CrcOf s bytes t) :
    ∃ u, exec (.crcByte (b.setWidth 64)) t = .next u ∧ CrcOf s (bytes ++ [b]) u := by
  refine ⟨_, exec_crcByte _ t, ?_⟩
  rw [CrcOf] at h
  rw [CrcOf, crc24q_snoc, setWidth_setWidth_byte, h]

/-- Settles O37: `CRC_INIT` begins the empty sequence, and `CRC_RD` reads the register. -/
theorem crc24qCommandsComputeCrc : Obligations.Crc24qCommandsComputeCrc := by
  intro bytes s
  obtain ⟨t, hrest, ht⟩ := executes_map _ (CrcOf s) (crcByte_extends s) bytes (xs := [])
    (s := { s with crc := 0x000000#24, resp := some ⟨plainStat s, 0#64⟩ }) rfl
  rw [CrcOf, List.nil_append] at ht
  refine ⟨_, run_pseudo rfl (fun _ _ => rfl) rfl (exec_crcInit s) hrest (exec_crcRd t), ?_, ?_, ?_⟩
  · rw [ht]
  · rw [ht]
    rfl
  · rw [ht]

/-! ## `FRAME` -/

theorem wellFormed_encodeInstr (k : FieldKind) (na : Bool) {w : Nat} (d : Word) (hw : WidthOk w) :
    wellFormed (encodeInstr k na w d) = true := by cases k <;> exact decide_eq_true hw

/-- As long as the fields fit, they are what the buffer holds, one behind the other, and `out` is still `out`. -/
def PayloadOf (out : List Beat) (fields : List FieldSpec) (t : State) : Prop :=
  (fields.map FieldSpec.width).sum ≤ 8184 → t.pbuf = fields.flatMap fieldBits ∧
    t.plen.toNat = (fields.map FieldSpec.width).sum ∧ t.out = out

theorem encode_out {w : Nat} {e : Encoded w} {na : Bool} {s t : State} (h : encodeAndAppend e na s = .next t) :
    t.out = s.out := by
  rw [encodeAndAppend_eq] at h
  cases h
  rfl

theorem encode_extends (out : List Beat) (fields : List FieldSpec) (f : FieldSpec) (t : State)
    (h : PayloadOf out fields t) :
    ∃ u, exec (encodeInstr f.kind false f.width f.value) t = .next u ∧ PayloadOf out (fields ++ [f]) u := by
  rw [exec_encodeInstr]
  obtain ⟨u, hu⟩ : ∃ u, encodeAndAppend (encodedOf f.kind f.width f.value) false t = .next u :=
    ⟨_, encodeAndAppend_eq ..⟩
  refine ⟨u, hu, fun hsum => ?_⟩
  rw [List.map_append, List.sum_append, List.map_singleton, List.sum_singleton] at hsum ⊢
  obtain ⟨hpbuf, hplen, hout⟩ := h (by omega)
  obtain ⟨hpbuf', hplen'⟩ := encode_appends (by omega) hu
  refine ⟨?_, by omega, (encode_out hu).trans hout⟩
  rw [hpbuf', hpbuf, List.flatMap_append, List.flatMap_singleton, fieldBits_eq]

/-- Settles O47: `PAY_CLR` begins the empty payload, and `BUILD_FRAME` emits its frame. -/
theorem frameCommandsBuildTheFrame : Obligations.FrameCommandsBuildTheFrame := by
  intro fields s hwidth hsum
  obtain ⟨t, hrest, ht⟩ := executes_map _ (PayloadOf s.out) (encode_extends s.out) fields (xs := [])
    (s := { s with pbuf := [], plen := 0#14, resp := some ⟨plainStat s, 0#64⟩ }) (fun _ => ⟨rfl, rfl, rfl⟩)
  obtain ⟨hpbuf, hplen, hout⟩ := ht hsum
  rw [List.nil_append] at hpbuf hplen
  refine ⟨_, run_pseudo rfl (fun f hf => wellFormed_encodeInstr _ _ _ (hwidth f hf)) rfl (exec_payClr s) hrest
    (exec_buildFrame t), hpbuf, hplen, beatsOf (buildFrame t.pbuf), ?_, ?_⟩
  · rw [hout]
  · rw [beatsOf_bytes, hpbuf]

/-! ## `CHECK` -/

/-- R103: the registers follow the bytes. -/
theorem chkByte_extends_byte (bytes : List Byte) (b : Byte) (s : State) (h : CheckerHolds bytes s) :
    ∃ t, exec (.chkByte (b.setWidth 64)) s = .next t ∧ CheckerHolds (bytes ++ [b]) t := by
  have hexec := exec_chkByte (b.setWidth 64) s
  have hholds := chkByte_extends hexec h
  rw [setWidth_setWidth_byte] at hholds
  exact ⟨_, hexec, hholds⟩

/-- Settles O52: `CHK_START` begins the empty sequence, and `CHK_RESULT` answers. -/
theorem checkCommandsComputeCheckFrame : Obligations.CheckCommandsComputeCheckFrame := by
  intro bytes s
  obtain ⟨hstart, _, _⟩ := checkerLaw
  obtain ⟨t, hfirst, ht⟩ := hstart s
  obtain ⟨u, hrest, hu⟩ := executes_map _ CheckerHolds chkByte_extends_byte bytes ht
  rw [List.nil_append] at hu
  obtain ⟨v, hlast, _, hmatch, hvalue⟩ := chkResult_answers hu
  exact ⟨v, run_pseudo rfl (fun _ _ => rfl) rfl hfirst hrest hlast, hmatch, hvalue⟩

/-- Settles O53: the emitted bytes are the frame of `pbuf`, which passes the check and fails it with one bit flipped. -/
theorem emittedFrameChecksAndFlippedFrameDoesNot : Obligations.EmittedFrameChecksAndFlippedFrameDoesNot := by
  intro s t _ h
  rw [exec_buildFrame] at h
  obtain rfl := Host.Outcome.next.inj h
  refine ⟨beatsOf (buildFrame s.pbuf), rfl, ?_, fun bytes hdiffer => ?_⟩
  · rw [beatsOf_bytes, beatsOf_length]
    obtain ⟨u, hrun, hmatch, hvalue⟩ := checkCommandsComputeCheckFrame (buildFrame s.pbuf) _
    have hpass : checkFrame (buildFrame s.pbuf) = true := checkFrame_append_threeBytes (frameBody s.pbuf)
    rw [hpass] at hmatch hvalue
    exact ⟨u, hrun, hmatch, hvalue⟩
  · rw [beatsOf_bytes] at hdiffer
    obtain ⟨u, hrun, hmatch, hvalue⟩ := checkCommandsComputeCheckFrame bytes _
    rw [flipped_fails hdiffer] at hmatch hvalue
    exact ⟨u, hrun, hmatch, hvalue⟩

end Sys2Proof.Proofs
end

section
/-!
PROOFS. The field formats (spec 40_bitfield.md section 5): the round trips of R75, the fields of an operand out of range of R76, and the
operand bits no command reads (30_encoding.md R52). A sign-magnitude field is read as sign times 2^(W-1) plus magnitude.
-/

namespace Sys2Proof.Proofs

open Sys2Proof.Machine Sys2Proof.Safety

theorem encoded_eq_mk {w : Nat} {e : Encoded w} {f : BitVec w} {b : Bool} (hf : e.f = f) (hinr : e.inr = b) :
    e = ⟨f, b⟩ := by
  subst hf hinr
  rfl

/-! ## Unsigned -/

theorem decU_encU (x w : Nat) : decU (encU x w).f = x % 2 ^ w := BitVec.toNat_ofNat x w

theorem decU_encU_of_le {x w : Nat} (h : x ≤ 2 ^ w - 1) : decU (encU x w).f = x := by
  have := Nat.two_pow_pos w
  rw [decU_encU, Nat.mod_eq_of_lt (by omega)]

theorem encU_decU {w : Nat} (f : BitVec w) : encU (decU f) w = ⟨f, true⟩ := by
  have := f.isLt
  exact encoded_eq_mk (BitVec.ofNat_toNat w f |>.trans (BitVec.setWidth_eq f)) (decide_eq_true (by rw [decU]; omega))

/-! ## Two's complement -/

theorem decS_encS_of_le {x : Int} {w : Nat} (hw : 1 ≤ w) (hmin : -((2 ^ (w - 1) : Nat) : Int) ≤ x)
    (hmax : x ≤ ((2 ^ (w - 1) : Nat) : Int) - 1) : decS (encS x w).f = x := by
  push_cast at hmin hmax
  exact BitVec.toInt_ofInt_eq_self hw hmin (by omega)

theorem decS_bounds {w : Nat} (f : BitVec w) :
    -((2 ^ (w - 1) : Nat) : Int) ≤ decS f ∧ decS f < ((2 ^ (w - 1) : Nat) : Int) := by
  push_cast
  exact ⟨BitVec.le_toInt f, BitVec.toInt_lt⟩

theorem encS_decS {w : Nat} (f : BitVec w) : encS (decS f) w = ⟨f, true⟩ := by
  obtain ⟨hmin, hmax⟩ := decS_bounds f
  exact encoded_eq_mk BitVec.ofInt_toInt (decide_eq_true ⟨hmin, by omega⟩)

/-- R76: the field of any integer is congruent to it. -/
theorem dvd_decS_encS_sub (x : Int) (w : Nat) : ((2 ^ w : Nat) : Int) ∣ decS (encS x w).f - x := by
  rw [decS, encS, BitVec.toInt_ofInt]
  exact Int.dvd_bmod_sub_self

/-! ## Sign and magnitude -/

theorem getLsbD_signBit {w : Nat} (f : BitVec w) : f.getLsbD (w - 1) = decide (2 ^ (w - 1) ≤ f.toNat) := by
  rw [← BitVec.msb_eq_getLsbD_last, BitVec.msb_eq_decide]

/-- Every field is its sign times the weight of the sign bit, plus its magnitude. -/
theorem toNat_eq_sign_magnitude {w : Nat} (hw : 1 ≤ w) (f : BitVec w) :
    f.toNat = (f.getLsbD (w - 1)).toNat * 2 ^ (w - 1) + f.toNat % 2 ^ (w - 1) := by
  have hlt := f.isLt
  have htop : 2 * 2 ^ (w - 1) = 2 ^ w := mul_pow_sub_one (by omega) 2
  rw [getLsbD_signBit]
  by_cases hsign : 2 ^ (w - 1) ≤ f.toNat
  · rw [decide_eq_true hsign, Nat.mod_eq_sub_mod hsign, Nat.mod_eq_of_lt (by omega), Bool.toNat_true]
    omega
  · rw [decide_eq_false hsign, Nat.mod_eq_of_lt (by omega), Bool.toNat_false]
    omega

/-- R66 of a field so given. -/
theorem decSM_eq {w m : Nat} {f : BitVec w} {sign : Bool} (hm : m < 2 ^ (w - 1))
    (hf : f.toNat = sign.toNat * 2 ^ (w - 1) + m) : decSM f = if sign then -(m : Int) else m := by
  have hmag : f.toNat % 2 ^ (w - 1) = m := by
    rw [hf, Nat.mul_comm, Nat.mul_add_mod, Nat.mod_eq_of_lt hm]
  have hsign : decide (2 ^ (w - 1) ≤ f.toNat) = sign := by
    cases sign with
    | false => exact decide_eq_false (by rw [hf, Bool.toNat_false]; omega)
    | true => exact decide_eq_true (by rw [hf, Bool.toNat_true]; omega)
  rw [decSM, hmag, getLsbD_signBit, hsign]

theorem toNat_encSM {w : Nat} (x : Int) (hw : WidthOk w) :
    (encSM x w).f.toNat = (decide (x < 0)).toNat * 2 ^ (w - 1) + x.natAbs % 2 ^ (w - 1) := by
  have h64 : 2 ^ w ≤ 2 ^ 64 := Nat.pow_le_pow_right (by decide) hw.2
  have hlt := (encSM x w).f.isLt
  rw [← toNat_encSM_setWidth x hw, BitVec.toNat_setWidth, Nat.mod_eq_of_lt (by omega)]

/-- R76: the field of any integer has its sign, and its magnitude modulo 2^(W-1). -/
theorem decSM_encSM {w : Nat} (x : Int) (hw : WidthOk w) :
    decSM (encSM x w).f = x.sign * ((x.natAbs % 2 ^ (w - 1) : Nat) : Int) := by
  rw [decSM_eq (Nat.mod_lt _ (Nat.two_pow_pos _)) (toNat_encSM x hw)]
  obtain hneg | rfl | hpos := lt_trichotomy x 0
  · rw [decide_eq_true hneg, Int.sign_eq_neg_one_of_neg hneg, if_pos rfl, Int.neg_one_mul]
  · simp
  · rw [decide_eq_false (by omega), Int.sign_eq_one_of_pos hpos, if_neg Bool.false_ne_true, Int.one_mul]

theorem decSM_encSM_of_le {w : Nat} {x : Int} (hw : WidthOk w) (hx : x.natAbs ≤ 2 ^ (w - 1) - 1) :
    decSM (encSM x w).f = x := by
  have := Nat.two_pow_pos (w - 1)
  rw [decSM_encSM x hw, Nat.mod_eq_of_lt (by omega), Int.sign_mul_natAbs]

/-- The integer of a field gives the field back, where the sign is that of the integer. -/
theorem encSM_of_sign_magnitude {w m : Nat} {f : BitVec w} {sign : Bool} (hw : WidthOk w) (hm : m < 2 ^ (w - 1))
    (hf : f.toNat = sign.toNat * 2 ^ (w - 1) + m) (hzero : sign = true → m ≠ 0) :
    encSM (if sign then -(m : Int) else m) w = ⟨f, true⟩ := by
  have habs : (if sign then -(m : Int) else m).natAbs = m := by cases sign <;> simp
  have hneg : decide ((if sign then -(m : Int) else m) < 0) = sign := by
    cases sign with
    | false => simp
    | true => simpa [Nat.pos_iff_ne_zero] using hzero
  refine encoded_eq_mk (BitVec.eq_of_toNat_eq ?_) (decide_eq_true ?_)
  · rw [toNat_encSM _ hw, habs, hneg, Nat.mod_eq_of_lt hm, hf]
  · rw [habs]
    omega

/-- R75: negative zero is the one field that does not come back. -/
theorem encSM_decSM {w : Nat} (hw : WidthOk w) {f : BitVec w} (hf : f ≠ BitVec.ofNat w (2 ^ (w - 1))) :
    encSM (decSM f) w = ⟨f, true⟩ := by
  have hm : f.toNat % 2 ^ (w - 1) < 2 ^ (w - 1) := Nat.mod_lt _ (Nat.two_pow_pos _)
  have hval := toNat_eq_sign_magnitude hw.1 f
  rw [decSM_eq hm hval]
  refine encSM_of_sign_magnitude hw hm hval fun hsign hzero => hf ?_
  rw [hsign, hzero, Bool.toNat_true, Nat.one_mul, Nat.add_zero] at hval
  rw [← hval, BitVec.ofNat_toNat, BitVec.setWidth_eq]

theorem encSM_decSM_negativeZero {w : Nat} (hw : WidthOk w) :
    encSM (decSM (BitVec.ofNat w (2 ^ (w - 1)))) w = ⟨0#w, true⟩ := by
  have hpos := Nat.two_pow_pos (w - 1)
  have hlt : 2 ^ (w - 1) < 2 ^ w := Nat.pow_lt_pow_right (by decide) (Nat.sub_one_lt_of_lt hw.1)
  have hzero : decSM (BitVec.ofNat w (2 ^ (w - 1))) = 0 := by
    rw [decSM_eq (sign := true) hpos (by rw [BitVec.toNat_ofNat, Nat.mod_eq_of_lt hlt]; simp)]
    rfl
  rw [hzero]
  exact encSM_of_sign_magnitude (sign := false) (m := 0) hw hpos (by simp) (by simp)

/-! ## In commands -/

/-- What an encode answers: its field, and bit 4 of the status when the operand was out of range. -/
theorem encode_response {w : Nat} {e : Encoded w} {na : Bool} {s t : State} {r : Response}
    (h : encodeAndAppend e na s = .next t) (hr : t.resp = some r) :
    r.value = e.f.setWidth 64 ∧ r.stat.getLsbD 4 = !e.inr := by
  rw [encodeAndAppend_eq] at h
  cases h
  obtain rfl := Option.some.inj hr
  obtain ⟨_, _, _, _, hwarn, _⟩ := statByte_bits (s.warn || !e.inr) (s.ovf || (!na && !appendFits w s)) s.err s.matchFlag
    (!e.inr) (!na && !appendFits w s) false
  exact ⟨rfl, hwarn⟩

/-- The integer a format reads from an operand in range is that of the operand. -/
theorem decode_answers_operand {k : FieldKind} {w : Nat} {d : Word} (hw : WidthOk w)
    (hinr : (encodedOf k w d).inr = true) (s : State) :
    ∃ u, exec (decodeInstr k w ((encodedOf k w d).f.setWidth 64)) s = .next u ∧
      u.resp.map Response.value = some d := by
  have hfield : (((encodedOf k w d).f.setWidth 64).setWidth w : BitVec w) = (encodedOf k w d).f :=
    (BitVec.setWidth_setWidth_of_le _ hw.2).trans (BitVec.setWidth_eq _)
  cases k with
  | u =>
    obtain ⟨_, _, hexec⟩ := decUResult w ((encodedOf .u w d).f.setWidth 64) hw
    refine ⟨_, hexec s, congrArg some ?_⟩
    have hvalue : ((encodedOf .u w d).f.setWidth 64).toNat % 2 ^ w = d.toNat := by
      rw [← BitVec.toNat_setWidth, hfield]
      exact decU_encU_of_le (of_decide_eq_true hinr)
    rw [hvalue, BitVec.ofNat_toNat, BitVec.setWidth_eq]
  | s =>
    obtain ⟨_, _, v, hexec, _, hv⟩ := decSResult w ((encodedOf .s w d).f.setWidth 64) hw
    have hrange := of_decide_eq_true hinr
    refine ⟨_, hexec s, congrArg some (BitVec.eq_of_toInt_eq ?_)⟩
    rw [hv, hfield]
    exact decS_encS_of_le hw.1 hrange.1 hrange.2
  | sm =>
    obtain ⟨_, _, v, hexec, _, hv⟩ := decSMResult w ((encodedOf .sm w d).f.setWidth 64) hw
    refine ⟨_, hexec s, congrArg some (BitVec.eq_of_toInt_eq ?_)⟩
    rw [hv, hfield]
    exact decSM_encSM_of_le hw (of_decide_eq_true hinr)

/-- Settles O26: the formats one by one, and the commands by the integers they stand for. -/
theorem fieldRoundTrips : Obligations.FieldRoundTrips := by
  refine ⟨fun w hw => ⟨fun _ => decU_encU_of_le, fun _ => decS_encS_of_le hw.1, fun _ => decSM_encSM_of_le hw, encU_decU,
    encS_decS, fun _ => encSM_decSM hw, encSM_decSM_negativeZero hw⟩, fun k na w d s s' t r hw h hr hstat => ?_⟩
  rw [exec_encodeInstr] at h
  obtain ⟨hvalue, hwarn⟩ := encode_response h hr
  rw [hstat] at hwarn
  rw [hvalue]
  exact decode_answers_operand hw (by simpa using hwarn.symm) s'

/-! ## Out of range -/

theorem encode_warns {w : Nat} {e : Encoded w} (na : Bool) (s : State) (hinr : e.inr = false) :
    ∃ t, encodeAndAppend e na s = .next t ∧ t.warn = true :=
  ⟨_, encodeAndAppend_eq .., by simp [hinr]⟩

/-- Settles O27: each format wraps, for every integer, and the range check fails just outside its range. -/
theorem outOfRangeFieldsWrapAndWarn : Obligations.OutOfRangeFieldsWrapAndWarn := by
  refine ⟨fun w hw => ⟨fun x hx => ⟨decide_eq_false ?_, decU_encU x w⟩,
    fun x hx => ⟨decide_eq_false ?_, (decS_bounds _).1, (decS_bounds _).2, dvd_decS_encS_sub x w⟩,
    fun x hx => ⟨decide_eq_false ?_, decSM_encSM x hw⟩⟩, fun k na w d s _ hout => ?_⟩
  · have := Nat.two_pow_pos w
    omega
  · omega
  · have := Nat.two_pow_pos (w - 1)
    omega
  · rw [outOfRange_encodeInstr, Bool.not_eq_true'] at hout
    rw [exec_encodeInstr]
    exact encode_warns na s hout

/-! ## Unused operand bits -/

/-- The low bits are all there is in a narrower word. -/
theorem setWidth_eq_of_bits {d d' : Word} {w : Nat} (h : ∀ i < w, d.getLsbD i = d'.getLsbD i) :
    d.setWidth w = d'.setWidth w := by
  apply BitVec.eq_of_getLsbD_eq
  intro i hi
  rw [getLsbD_setWidth_of_lt d hi, getLsbD_setWidth_of_lt d' hi, h i hi]

/-- Settles O28: each of these commands reads its operand through `setWidth`. -/
theorem unusedOperandBitsAreIgnored : Obligations.UnusedOperandBitsAreIgnored := by
  intro d d' s
  refine ⟨fun w hw h => ?_, fun h => ?_, fun h => ?_⟩
  · obtain ⟨hmin, _⟩ := widthOk_iff.mp hw
    have hfield := setWidth_eq_of_bits h
    have hmagnitude : d.setWidth (w - 1) = d'.setWidth (w - 1) := setWidth_eq_of_bits fun i hi => h i (by omega)
    refine ⟨?_, ?_, ?_⟩
    · exact congrArg (fun f : BitVec w => complete [] (f.setWidth 64) s) hfield
    · exact congrArg (fun f : BitVec w => complete [] (f.signExtend 64) s) hfield
    · rw [exec_decSM d hmin, exec_decSM d' hmin, h (w - 1) (by omega), hmagnitude]
  · have hbyte : operandByte d = operandByte d' := setWidth_eq_of_bits h
    refine ⟨?_, ?_⟩
    · rw [exec_crcByte, exec_crcByte, ← operandByte_eq_setWidth, ← operandByte_eq_setWidth, hbyte]
    · have hexec : ∀ x, exec (.chkByte x) s = execChkByte x s := fun _ => rfl
      rw [hexec, hexec, execChkByte, execChkByte, hbyte]
  · have hmask : operandClearMask d = operandClearMask d' := setWidth_eq_of_bits h
    rw [exec_clrFlags, exec_clrFlags, hmask]

end Sys2Proof.Proofs
end
